-- ==== Sys2Proof/Word.lean ====
section
/-! DEFINITION. The byte of the two serial links and plain integer arithmetic the computations round by. -/

namespace Sys2Proof

/-- One byte of a site link or post bus frame (R178: both links are byte-oriented). -/
abbrev Byte := BitVec 8

/-- Division rounded up, as the stages of the thermal estimate state it (1.6: divisions round as each
computation states). -/
def ceilDiv (n d : Nat) : Nat := (n + d - 1) / d

/-- A value rounded down to a multiple of 100. -/
def floor100 (n : Nat) : Nat := n / 100 * 100

/-- A value rounded up to a multiple of 100. -/
def ceil100 (n : Nat) : Nat := ceilDiv n 100 * 100

/-- A natural number brought to the nearest end of a range (1.6, clamping). -/
def clampNat (lo hi n : Nat) : Nat := min hi (max lo n)

/-- An integer brought to the nearest end of a range (1.6, clamping). -/
def clampInt (lo hi n : Int) : Int := min hi (max lo n)

end Sys2Proof
end

