-- ==== Sys2Proof/Syntax.lean ====
section
/-! DEFINITION. The commands of the block: one constructor of `Instr` for each row of spec/opcode_table.json, with
the operands the row's rule gives it. A request carries its tag and its fields as the frame has them (R180). -/

namespace Sys2Proof

/-- A handle as a request carries it: slot byte, then generation byte (R178). The slot may lie above 63 (R27). -/
structure RawHandle where
  slot : Nat
  gen  : Nat
  deriving DecidableEq, Repr

/-- The fields of PLACE (R180, code 0x01). `presence` bit 0 marks the earliest start, bit 1 the hold extension. -/
structure PlaceFields where
  presence : Byte
  vehicle  : Nat
  departure : Nat
  target   : Int
  cls      : Nat
  tier     : Nat
  earliest : Nat
  hold     : Nat
  deriving DecidableEq, Repr

/-- The fields of AMEND (R180, code 0x02). `mask` bits: 0 departure, 1 target, 2 class, 3 tier, 4 vehicle, 5 set and
6 clear earliest start, 7 set and 8 clear hold extension. The fields a mask does not name are ignored. -/
structure AmendFields where
  handle    : RawHandle
  mask      : BitVec 16
  vehicle   : Nat
  departure : Nat
  target    : Int
  cls       : Nat
  tier      : Nat
  earliest  : Nat
  hold      : Nat
  deriving DecidableEq, Repr

/-- The fields of SET SITE (R180, code 0x08; R173). -/
structure SiteFields where
  siteLimit     : Nat
  limitedLevel  : Nat
  ceiling       : Nat
  autoCeiling   : Nat
  rampLimit     : Nat
  meterConstant : Nat
  meterEdge     : Nat
  restoreDelay  : Nat
  roundPeriod   : Nat
  startLead     : Nat
  grace         : Nat
  departWindow  : Nat
  horizon       : Nat
  fallback      : Int
  deriving DecidableEq, Repr

/-- The fields of SET POST (R180, code 0x0B). `mask` bits: 0 service, 1 heater interface, 2 feed limit, 3 poll mode. -/
structure SetPostFields where
  post       : Nat
  mask       : Byte
  service    : Nat
  interface_ : Nat
  feedLimit  : Nat
  pollMode   : Nat
  deriving DecidableEq, Repr

/-- The fields of SET CLASS (R180, code 0x0D; R98). -/
structure SetClassFields where
  cls  : Nat
  c    : Nat
  g    : Nat
  pmax : Nat
  pmin : Nat
  h    : Nat
  m    : Nat
  deriving DecidableEq, Repr

/-- A level of an input line. -/
inductive Level where
  | low
  | high
  deriving DecidableEq, Repr

/-- The two filtered site lines (R146). -/
inductive SiteLine where
  | limit
  | shed
  deriving DecidableEq, Repr

/-- The direction of a METER transition, and the meter edge setting (R144). -/
inductive Edge where
  | rising
  | falling
  deriving DecidableEq, Repr

/-- The 57 commands. The comment at each names its row of the table. -/
inductive Instr where
  | powerOn                                                   -- POWER_ON
  | restart                                                   -- RESTART
  | secondBoundary                                            -- SECOND_BOUNDARY
  | frameReceived (bytes : List Byte)                         -- FRAME_RECEIVED
  | frameGapTimeout                                           -- FRAME_GAP_TIMEOUT
  | frameTaken                                                -- FRAME_TAKEN
  | place (tag : Byte) (f : PlaceFields)                      -- PLACE
  | amend (tag : Byte) (f : AmendFields)                      -- AMEND
  | withdraw (tag : Byte) (h : RawHandle)                     -- WITHDRAW
  | release (tag : Byte) (h : RawHandle)                      -- RELEASE
  | lookup (tag : Byte) (h : RawHandle)                       -- LOOKUP
  | find (tag : Byte) (vehicle : Nat)                         -- FIND
  | walkStart (tag : Byte) (form : Nat)                       -- WALK_START
  | walkNext (tag : Byte)                                     -- WALK_NEXT
  | setSite (tag : Byte) (f : SiteFields)                     -- SET_SITE
  | readSite (tag : Byte)                                     -- READ_SITE
  | setLink (tag : Byte) (posting time : Nat)                 -- SET_LINK
  | setPost (tag : Byte) (f : SetPostFields)                  -- SET_POST
  | readPost (tag : Byte) (post : Nat)                        -- READ_POST
  | setClass (tag : Byte) (f : SetClassFields)                -- SET_CLASS
  | clearClass (tag : Byte) (cls : Nat)                       -- CLEAR_CLASS
  | readClass (tag : Byte) (cls : Nat)                        -- READ_CLASS
  | setTime (tag : Byte) (minute second : Nat)                -- SET_TIME
  | readTime (tag : Byte)                                     -- READ_TIME
  | setMode (tag : Byte) (mode : Nat)                         -- SET_MODE
  | replan (tag : Byte)                                       -- REPLAN
  | readAttention (tag : Byte) (source : Option Nat)          -- READ_ATTENTION
  | clearAttention (tag : Byte) (source : Nat) (flags : Byte) -- CLEAR_ATTENTION
  | setMasks (tag : Byte) (masks : BitVec 32) (groups : Byte) -- SET_MASKS
  | supervisionExpiry                                         -- SUPERVISION_EXPIRY
  | createAccess                                              -- CREATE_ACCESS
  | amendAccess                                               -- AMEND_ACCESS
  | withdrawAccess                                            -- WITHDRAW_ACCESS
  | freeAccess                                                -- FREE_ACCESS
  | readAccess                                                -- READ_ACCESS
  | indexRead                                                 -- INDEX_READ
  | bindAccess                                                -- BIND_ACCESS
  | unbindAccess                                              -- UNBIND_ACCESS
  | stallEntry                                                -- STALL_ENTRY
  | stallCauseReplacement                                     -- STALL_CAUSE_REPLACEMENT
  | recovery                                                  -- RECOVERY
  | addEnergy                                                 -- ADD_ENERGY
  | zeroGrantOnShed                                           -- ZERO_GRANT_ON_SHED
  | roundTimerExpiry                                          -- ROUND_TIMER_EXPIRY
  | snapshotRead                                              -- SNAPSHOT_READ
  | sweepRead                                                 -- SWEEP_READ
  | roundCompute                                              -- ROUND_COMPUTE
  | writeBack                                                 -- WRITE_BACK
  | exchangeStart                                             -- EXCHANGE_START
  | postReply (bytes : List Byte)                             -- POST_REPLY
  | replyTimeout                                              -- REPLY_TIMEOUT
  | plugSenseChange (post : Fin 24) (level : Level)           -- PLUG_SENSE_CHANGE
  | plugFilterExpiry (post : Fin 24)                          -- PLUG_FILTER_EXPIRY
  | siteLineChange (line : SiteLine) (level : Level)          -- SITE_LINE_CHANGE
  | siteLineFilterExpiry (line : SiteLine)                    -- SITE_LINE_FILTER_EXPIRY
  | restoreTimerExpiry                                        -- RESTORE_TIMER_EXPIRY
  | meterPulse (edge : Edge)                                  -- METER_PULSE
  deriving DecidableEq, Repr

end Sys2Proof
end

