-- ==== Sys2Proof/WellFormed.lean ====
section
/-! DEFINITION. Well-formed commands: each operand fits the width the frame layouts give it (R178, R180), and a
WALK_START is not the NEXT form. Values inside the width but outside their set are well-formed: the part refuses
them (BAD FIELD) or clamps them. -/

namespace Sys2Proof

/-- The value fits one byte. -/
def fits8 (n : Nat) : Bool := n < 256

/-- The value fits two bytes. -/
def fits16 (n : Nat) : Bool := n < 65536

/-- The value fits two bytes in two's complement (R178). -/
def fitsS16 (n : Int) : Bool := -32768 ≤ n && n ≤ 32767

/-- Slot and generation are a byte each (R178). -/
def RawHandle.fits (h : RawHandle) : Bool := fits8 h.slot && fits8 h.gen

/-- The widths of PLACE's fields (R180). -/
def PlaceFields.fits (f : PlaceFields) : Bool :=
  fits16 f.vehicle && fits16 f.departure && fitsS16 f.target && fits8 f.cls && fits8 f.tier && fits16 f.earliest &&
    fits8 f.hold

/-- The widths of AMEND's fields (R180). -/
def AmendFields.fits (f : AmendFields) : Bool :=
  f.handle.fits && fits16 f.vehicle && fits16 f.departure && fitsS16 f.target && fits8 f.cls && fits8 f.tier &&
    fits16 f.earliest && fits8 f.hold

/-- The widths of SET SITE's fields (R180). -/
def SiteFields.fits (f : SiteFields) : Bool :=
  fits16 f.siteLimit && fits16 f.limitedLevel && fits16 f.ceiling && fits16 f.autoCeiling && fits16 f.rampLimit &&
    fits8 f.meterConstant && fits8 f.meterEdge && fits16 f.restoreDelay && fits8 f.roundPeriod && fits8 f.startLead &&
    fits8 f.grace && fits8 f.departWindow && fits16 f.horizon && fitsS16 f.fallback

/-- The widths of SET POST's fields (R180). -/
def SetPostFields.fits (f : SetPostFields) : Bool :=
  fits8 f.post && fits8 f.service && fits8 f.interface_ && fits16 f.feedLimit && fits8 f.pollMode

/-- The widths of SET CLASS's fields (R180). -/
def SetClassFields.fits (f : SetClassFields) : Bool :=
  fits8 f.cls && fits8 f.c && fits8 f.g && fits16 f.pmax && fits16 f.pmin && fits8 f.h && fits8 f.m

/-- Well-formedness of a command, constructor by constructor. -/
def Instr.wf : Instr → Bool
  | .place _ f => f.fits
  | .amend _ f => f.fits
  | .withdraw _ h => h.fits
  | .release _ h => h.fits
  | .lookup _ h => h.fits
  | .find _ v => fits16 v
  | .walkStart _ form => fits8 form && form != 2
  | .setSite _ f => f.fits
  | .setLink _ p t => fits8 p && fits16 t
  | .setPost _ f => f.fits
  | .readPost _ p => fits8 p
  | .setClass _ f => f.fits
  | .clearClass _ c => fits8 c
  | .readClass _ c => fits8 c
  | .setTime _ m sec => fits16 m && fits8 sec
  | .setMode _ m => fits8 m
  | .readAttention _ src => src.all fits8
  | .clearAttention _ src _ => fits8 src
  | .powerOn | .restart | .secondBoundary | .frameReceived _ | .frameGapTimeout | .frameTaken => true
  | .walkNext _ | .readSite _ | .readTime _ | .replan _ | .setMasks _ _ _ | .supervisionExpiry => true
  | .createAccess | .amendAccess | .withdrawAccess | .freeAccess | .readAccess | .indexRead => true
  | .bindAccess | .unbindAccess | .stallEntry | .stallCauseReplacement | .recovery | .addEnergy => true
  | .zeroGrantOnShed | .roundTimerExpiry | .snapshotRead | .sweepRead | .roundCompute | .writeBack => true
  | .exchangeStart | .postReply _ | .replyTimeout | .plugSenseChange _ _ | .plugFilterExpiry _ => true
  | .siteLineChange _ _ | .siteLineFilterExpiry _ | .restoreTimerExpiry | .meterPulse _ => true

end Sys2Proof
end

