-- ==== Sys2Proof/Decode.lean ====
section
/-! DEFINITION. The decoder of the opcode table's bits. The part has no instruction words: every row of
spec/opcode_table.json is a step with no fixed bits and no fields (n_rows_with_fixed and n_rows_with_fields are 0 in
spec/98_reader.md), so no word spells a command. The frames of the site link and the post bus are decoded in
Machine/Operands.lean. -/

namespace Sys2Proof

/-- The command a word of `nbits` bits spells by the table: none, since the table gives no row any bits. -/
def decodeTableWord (_nbits _w : Nat) : Option Instr := none

end Sys2Proof
end

