-- ==== Sys2Proof/Config.lean ====
section
/-! DEFINITION. What is fixed for the part: the spec's constants. The spec leaves no value of a step open, so
there is no free value here. -/

namespace Sys2Proof.Config

/-- Minutes of the repeating week (1.6: minute 0 to 10079). -/
abbrev weekMinutes : Nat := 10080

/-- The furthest a stored minute reads ahead of the present (R52). -/
abbrev aheadLimit : Nat := 8640

/-- Milliseconds of one second: the quantum in which the model counts every timer.
DESIGN CHOICE, log entry 1. -/
abbrev msPerSecond : Nat := 1000

/-- The plug-sense and site line filters run for 2 s (R65, R146). -/
abbrev filterMs : Nat := 2000

/-- The post bus reply timeout (R68). -/
abbrev replyTimeoutMs : Nat := 25

/-- The longest gap between two bytes of one site link frame (R164). -/
abbrev frameGapMs : Nat := 20

/-- The longest readable payload length of a request frame (R164, R180). -/
abbrev maxPayload : Nat := 60

/-- The most live orders of one vehicle number (R31). -/
abbrev vehicleLimit : Nat := 4

/-- The number of posting slots (R168, section 12 opening). -/
abbrev postingSlots : Nat := 2

/-- The highest delivered energy an order records (R6). -/
abbrev energyMax : Nat := 65535

/-- The largest energy increment taken as delivered (R77). -/
abbrev energyStepMax : Nat := 1000

/-- The meter pulse counter's highest count (R144). -/
abbrev meterMax : Nat := 4095

/-- The time to target that stands for an UNREACHABLE or very slow lift (R108). -/
abbrev timeToTargetMax : Nat := 65535

/-- The reading age at which a cabin reading is no longer used (R73, R106). -/
abbrev ageMax : Nat := 3

/-- The silence count at which a post becomes SILENT (R74). -/
abbrev silenceMax : Nat := 4

/-- The start byte of a site link frame (R179). -/
abbrev siteStart : Byte := 0xA5

/-- The start byte of a post bus frame (R179). -/
abbrev busStart : Byte := 0xC3

/-- The CRC-8 generator polynomial without its leading term (R179: 0x9B). -/
abbrev crcPoly : Byte := 0x9B

/-- The CRC-8 register's start value (R179). -/
abbrev crcInit : Byte := 0xFF

end Sys2Proof.Config
end

