-- ==== Sys2Proof/Machine/State.lean ====
section
/-! DEFINITION. Everything the part holds, block by block (00 §1.3), as plain data, and its power-on value. -/

namespace Sys2Proof.Machine

/-! ### Names shared by the blocks -/

/-- The name of an order: its slot with the generation the slot had at its creation (02 section 3.1). -/
structure Handle where
  slot : Fin 64
  gen  : Nat
  deriving DecidableEq, Repr

/-- The priority group of an order (R1). -/
inductive Tier where
  | firstOut
  | regular
  | flexible
  deriving DecidableEq, Repr

/-- The six states of an order (R7). -/
inductive OrderState where
  | pending
  | waiting
  | heating
  | holding
  | stalled
  | closed
  deriving DecidableEq, Repr

/-- Why a bound order is STALLED (R3, R19). -/
inductive StallCause where
  | heaterFault
  | staleReading
  | postSilent
  deriving DecidableEq, Repr

/-- The result recorded at a close (R3, R18). -/
inductive OrderOutcome where
  | met
  | late
  | lapsed
  | withdrawn
  | broken
  deriving DecidableEq, Repr

/-- The statuses a reply can carry (11 section 12.7). -/
inductive Status where
  | done
  | posted
  | restarted
  | endOfWalk
  | badRequest
  | checkError
  | badField
  | unknownHandle
  | closed
  | notClosed
  | noClass
  | tableFull
  | vehicleFull
  | duplicate
  | past
  | locked
  | inUse
  | busy
  | noClock
  deriving DecidableEq, Repr

/-! ### Depot clock (03) -/

/-- The depot clock (section 4.1): prescaler in ms (log entry 1), second, minute-of-week, clock-set indicator. -/
structure Clock where
  prescaler : Nat
  second    : Nat
  minute    : Nat
  isSet     : Bool
  deriving DecidableEq, Repr

/-! ### Order store (01, 02) -/

/-- The planner's last thermal estimate of an order (R4). -/
structure Estimate where
  liftEnergy   : Nat
  lossPower    : Nat
  timeToTarget : Nat
  latestStart  : Nat
  slack        : Int
  request      : Nat
  unreachable  : Bool
  deriving DecidableEq, Repr

/-- An order record (R1 to R6). -/
structure Order where
  handle    : Handle
  vehicle   : Nat
  departure : Nat
  target    : Int
  cls       : Fin 16
  tier      : Tier
  state     : OrderState
  earliest  : Option Nat
  hold      : Option Nat
  boundPost : Option (Fin 24)
  stall     : Option StallCause
  outcome   : Option (OrderOutcome × Nat)
  estimate  : Option Estimate
  grant     : Nat
  short     : Bool
  behind    : Bool
  reached   : Option Nat
  energy    : Nat
  deriving DecidableEq, Repr

/-- A record as stored, with its check code (R39). `codeError` is the difference between the stored code and the code
the stored contents call for: 0 when the record verifies. DESIGN CHOICE, log entry 6. -/
structure Stored where
  order     : Order
  codeError : BitVec 16
  deriving DecidableEq, Repr

/-- The occupancy of a slot (R25). -/
inductive Occupancy where
  | free
  | live
  | closed
  deriving DecidableEq, Repr

/-- A slot's directory entry (R28). -/
structure DirEntry where
  generation : Nat
  occupancy  : Occupancy
  damaged    : Bool
  state      : Option OrderState
  vehicle    : Option Nat
  boundPost  : Option (Fin 24)
  deriving DecidableEq, Repr

/-- A slot: its directory entry and its record, if it holds one (R25). -/
structure Slot where
  dir    : DirEntry
  record : Option Stored
  deriving DecidableEq, Repr

/-- An entry of a vehicle's list (R31). -/
structure IndexEntry where
  handle    : Handle
  departure : Nat
  deriving DecidableEq, Repr

/-- The list of one vehicle number (R31, R32). -/
structure VehicleList where
  vehicle : Nat
  entries : List IndexEntry
  deriving DecidableEq, Repr

/-- The order store: 64 slots (R25), the vehicle index (R31) and the binding table (R34). -/
structure Store where
  slots : Vector Slot 64
  index : List VehicleList
  table : Vector (Option Handle) 24
  deriving DecidableEq, Repr

/-! ### Store accesses and the arbiter (02 sections 3.5 and 3.6) -/

/-- The three requesters (R38). -/
inductive Requester where
  | link
  | posts
  | plan
  deriving DecidableEq, Repr

/-- The cause of an unbind access (R91). -/
inductive UnbindCause where
  | unplug
  | vehicleChange
  | serviceOut
  deriving DecidableEq, Repr

/-- The accesses of the site link port (table of section 3.5). -/
inductive LinkAccess where
  | create (f : PlaceFields)
  | amend (f : AmendFields)
  | withdraw (h : RawHandle)
  | free (h : RawHandle)
  | read (h : Handle) (status : Status)
  | index (vehicle : Nat)
  deriving DecidableEq, Repr

/-- The accesses of the post bus engine (table of section 3.5). -/
inductive PostAccess where
  | unbind (post : Fin 24) (h : Handle) (cause : UnbindCause)
  | stall (post : Fin 24) (h : Handle) (cause : StallCause)
  | recover (post : Fin 24) (h : Handle)
  | addEnergy (post : Fin 24) (h : Handle) (kj : Nat)
  | zeroGrant (post : Fin 24) (h : Handle)
  | bind (post : Fin 24)
  deriving DecidableEq, Repr

/-- The accesses of the planner (table of section 3.5). -/
inductive PlanAccess where
  | snapshot (post : Fin 24) (h : Handle)
  | sweep (h : Handle)
  | writeBack (post : Fin 24)
  deriving DecidableEq, Repr

/-- What a binding attempt in flight has noted: the vehicle its tests of the post passed for, none when they failed
(R86), and the plug-outs and service OUTs taken at the post since it was served (R90). -/
structure BindNote where
  vehicle    : Option Nat
  plugOut    : Bool
  serviceOut : Bool
  deriving DecidableEq, Repr

/-- An access the arbiter has granted. -/
inductive Access where
  | link (a : LinkAccess)
  | posts (a : PostAccess)
  | bind (post : Fin 24) (note : BindNote)
  | plan (a : PlanAccess)
  deriving DecidableEq, Repr

/-- The store access arbiter (R38). -/
structure Arbiter where
  pointer  : Requester
  inFlight : Option Access
  deriving DecidableEq, Repr

/-! ### Site link port (11) -/

/-- The changes that may be posted (R168). -/
inductive Change where
  | amend (f : AmendFields)
  | withdraw (h : RawHandle)
  | release (h : RawHandle)
  deriving DecidableEq, Repr

/-- A request with its fields (the table of R167). -/
inductive Request where
  | place (f : PlaceFields)
  | change (c : Change)
  | lookup (h : RawHandle)
  | find (vehicle : Nat)
  | walkStart (form : Nat)
  | walkNext
  | setSite (f : SiteFields)
  | readSite
  | setLink (posting time : Nat)
  | setPost (f : SetPostFields)
  | readPost (post : Nat)
  | setClass (f : SetClassFields)
  | clearClass (cls : Nat)
  | readClass (cls : Nat)
  | setTime (minute second : Nat)
  | readTime
  | setMode (mode : Nat)
  | replan
  | readAttention (source : Option Nat)
  | clearAttention (source : Nat) (flags : Byte)
  | setMasks (masks : BitVec 32) (groups : Byte)
  deriving DecidableEq, Repr

/-- How far the request in progress is: waiting for the posted changes ahead of it, waiting for its store access, or held
by its owner (R166, R167, R99). -/
inductive Stage where
  | taken
  | access (a : LinkAccess)
  | held
  deriving DecidableEq, Repr

/-- The request in progress (R166). -/
structure InProgress where
  request : Request
  tag     : Byte
  stage   : Stage
  deriving DecidableEq, Repr

/-- A complete frame in the receive buffer, with the result of its check (R164). -/
structure Frame where
  code    : Byte
  tag     : Byte
  payload : List Byte
  good    : Bool
  deriving DecidableEq, Repr

/-- The receiver (R164): hunting for a start byte, waiting for the length, or with the length byte and the bytes
taken so far after it, oldest first. -/
inductive Receiver where
  | hunting
  | length
  | body (len : Byte) (got : List Byte)
  deriving DecidableEq, Repr

/-- The walk cursor (R171, R172): a SLOT walk with the last slot returned, or a RANK walk with the handles returned and
the note of a replacement of the ranking. -/
inductive Walk where
  | inactive
  | slot (last : Fin 64)
  | rank (returned : List Handle) (replaced : Bool)
  deriving DecidableEq, Repr

/-- The cause of the last reset (R177). -/
inductive ResetCause where
  | powerOn
  | restart
  deriving DecidableEq, Repr

/-- A reply frame (R165, R180). -/
structure Reply where
  code    : Byte
  tag     : Byte
  status  : Status
  clamped : Bool
  payload : List Byte
  deriving DecidableEq, Repr

/-- The site link port (11, opening list). `gap` is the time since the last byte of a frame being received, and `sent`
the replies sent, oldest first (log entry 8). -/
structure Link where
  receiver        : Receiver
  gap             : Nat
  buffer          : Option Frame
  inProgress      : Option InProgress
  posting         : List Change
  walk            : Walk
  postingEnabled  : Bool
  supervisionTime : Nat
  supervision     : Option Nat
  autonomy        : Bool
  resetCause      : ResetCause
  sent            : List Reply
  deriving DecidableEq, Repr

/-! ### Posts and the post bus engine (04, 05) -/

/-- The heater interface of a post (R59). -/
inductive Heater where
  | continuous
  | stepped
  | switched
  deriving DecidableEq, Repr

/-- The poll mode of a post (R59, R70). -/
inductive PollMode where
  | latent
  | direct
  deriving DecidableEq, Repr

/-- The state of a post (R64). An OUT post is one whose service setting is OUT. -/
inductive PostState where
  | out
  | empty
  | occupied
  | bound
  deriving DecidableEq, Repr

/-- The heater state a post reports (R71). -/
inductive HeaterState where
  | off
  | running
  | fault
  deriving DecidableEq, Repr

/-- A call code (R71, R78). -/
inductive CallCode where
  | none
  | leaving
  | help
  deriving DecidableEq, Repr

/-- The binding condition of a post (R83). -/
inductive Condition where
  | none
  | unordered
  | conflict
  deriving DecidableEq, Repr

/-- A post's current report (R72). Vehicle 0 is unknown. -/
structure Report where
  vehicle : Nat
  cabin   : Option Int
  outside : Option Int
  deriving DecidableEq, Repr

/-- A post's pending report (R80): each field held or not held; a held outside reading may be absent. -/
structure PendingReport where
  vehicle : Option Nat
  cabin   : Option Int
  outside : Option (Option Int)
  deriving DecidableEq, Repr

/-- A post record (section 5.1), with its round mark (R80) and its binding condition (R83). -/
structure Post where
  inService  : Bool
  heater     : Heater
  feedLimit  : Nat
  pollMode   : PollMode
  state      : PostState
  silent     : Bool
  current    : Report
  held       : PendingReport
  roundMark  : Bool
  heaterState : Option HeaterState
  age        : Nat
  silence    : Nat
  baseline   : Option Nat
  lastCall   : CallCode
  recorded   : Nat
  sent       : Option Nat
  claim      : Bool
  finalOwed  : Bool
  fetchMark  : Bool
  condition  : Condition
  deriving DecidableEq, Repr

/-- The exchange in flight (section 5.1, R68, R70). `level` is none for a POLL; `timer` counts the reply timeout. -/
structure Exchange where
  post        : Fin 24
  level       : Option Nat
  pollMode    : PollMode
  fetchMark   : Bool
  plugInSince : Bool
  timer       : Nat
  deriving DecidableEq, Repr

/-- The post bus engine: the 24 post records, the rotation pointer, the exchange in flight, and the store accesses it
means to present, in the order their events arose (R37). -/
structure Bus where
  posts    : Vector Post 24
  rotation : Fin 24
  exchange : Option Exchange
  queue    : List PostAccess
  deriving DecidableEq, Repr

/-! ### Line filters (R65, R146) -/

/-- An input line, its filtered level, and its filter timer: none while idle, else the ms it has run. -/
structure LineFilter where
  line     : Level
  filtered : Level
  timer    : Option Nat
  deriving DecidableEq, Repr

/-! ### Cabin class table (06) -/

/-- The six parameters of a defined class (R97). -/
structure ClassParams where
  c    : Nat
  g    : Nat
  pmax : Nat
  pmin : Nat
  h    : Nat
  m    : Nat
  deriving DecidableEq, Repr

/-- A class entry: its parameters when defined, and its user set (R97), ascending without repeats. -/
structure ClassEntry where
  params : Option ClassParams
  users  : List (Fin 64)
  deriving DecidableEq, Repr

/-! ### Planner (07) -/

/-- A round row: the planner's copy of one bound order and of its post (R121). -/
structure Row where
  post       : Fin 24
  handle     : Handle
  state      : OrderState
  vehicle    : Nat
  departure  : Nat
  target     : Int
  cls        : Fin 16
  tier       : Tier
  earliest   : Option Nat
  hold       : Option Nat
  reached    : Option Nat
  params     : ClassParams
  inService  : Bool
  heater     : Heater
  feedLimit  : Nat
  silent     : Bool
  report     : Report
  age        : Nat
  sent       : Option Nat
  deriving DecidableEq, Repr

/-- What COMPUTE found for a row: its estimate, eligibility and holding case, its grant and SHORT (R123). -/
structure RowResult where
  estimate : Estimate
  eligible : Bool
  holding  : Bool
  grant    : Nat
  short    : Bool
  deriving DecidableEq, Repr

/-- A row of the round in flight with the marks beside it: struck (R127), surviving its write-back (R126), and its
result once COMPUTE has run. -/
structure RowEntry where
  row    : Row
  struck : Bool
  kept   : Bool
  result : Option RowResult
  deriving DecidableEq, Repr

/-- The phase of a round in flight, with the accesses it has still to present (R120, R122, R124). -/
inductive Phase where
  | snapshot (left : List (Fin 24 × Handle))
  | sweep (left : List Handle)
  | compute
  | writeBack (left : List (Fin 24))
  deriving DecidableEq, Repr

/-- A planning round in flight: its phase, its now, the settings read at the snapshot (R120), and its rows, in
snapshot order before COMPUTE and in rank order after it. -/
structure Round where
  phase     : Phase
  now       : Nat
  startLead : Nat
  grace     : Nat
  fallback  : Int
  rows      : List RowEntry
  deriving DecidableEq, Repr

/-- The planner (section 8.1). The round state is IDLE while `round` is none. -/
structure Planner where
  timer   : Nat
  replan  : Bool
  round   : Option Round
  ranking : List Handle
  deriving DecidableEq, Repr

/-! ### Supply monitor (09) -/

/-- The forced mode (R147). -/
inductive ForcedMode where
  | none
  | limited
  | shed
  deriving DecidableEq, Repr

/-- The site mode (R148). -/
inductive SiteMode where
  | normal
  | limited
  | shed
  | restoring
  deriving DecidableEq, Repr

/-- The supply monitor (09, opening list). `restore` is none while the restore timer is stopped. -/
structure Supply where
  counter      : Nat
  overrange    : Bool
  interval     : Nat
  limit        : LineFilter
  shed         : LineFilter
  forced       : ForcedMode
  mode         : SiteMode
  restore      : Option Nat
  lastHeadroom : Nat
  lastPower    : Nat
  lastSent     : Nat
  deriving DecidableEq, Repr

/-- The site settings (R173). -/
structure SiteSettings where
  siteLimit     : Nat
  limitedLevel  : Nat
  ceiling       : Nat
  autoCeiling   : Nat
  rampLimit     : Nat
  meterConstant : Nat
  meterEdge     : Edge
  restoreDelay  : Nat
  roundPeriod   : Nat
  startLead     : Nat
  grace         : Nat
  departWindow  : Nat
  horizon       : Nat
  fallback      : Int
  deriving DecidableEq, Repr

/-! ### Attention unit (10) -/

/-- The event flags of a post source (R158). -/
structure PostEvents where
  pluggedIn  : Bool
  pluggedOut : Bool
  call       : Bool
  deriving DecidableEq, Repr

/-- The last dropped change (R157). -/
structure Dropped where
  change : Change
  reason : Status
  deriving DecidableEq, Repr

/-- The attention unit (10, opening list). The level flags are computed from their conditions (log entry 20). -/
structure Attention where
  modeChange     : Bool
  meterOverrange : Bool
  roundOverrun   : Bool
  changeDropped  : Bool
  posts          : Vector PostEvents 24
  masks          : BitVec 32
  groups         : BitVec 4
  dropped        : Option Dropped
  deriving DecidableEq, Repr

/-! ### The part -/

/-- The state of the CS-24, and the queue of commands waiting. -/
structure State where
  clock     : Clock
  store     : Store
  arbiter   : Arbiter
  link      : Link
  bus       : Bus
  plug      : Vector LineFilter 24
  classes   : Vector ClassEntry 16
  planner   : Planner
  supply    : Supply
  site      : SiteSettings
  attention : Attention
  pending   : List Instr
  deriving DecidableEq, Repr

/-- A step of this block never stops with a fault: the spec answers every error with a status, a discard or an
attention source, so there is no constructor and nothing raises one (safe). -/
inductive Fault where
  deriving DecidableEq, Repr

/-- Why a command has no meaning. -/
inductive Refusal where
  /-- Raised by an arm of exec whose command has no meaning yet; no arm raises it (safe). -/
  | notModelled (mnemonic : String)
  deriving DecidableEq, Repr

/-! ### Power-on values -/

/-- The depot clock at power-on (R58). -/
def Clock.init : Clock := { prescaler := 0, second := 0, minute := 0, isSet := false }

/-- The directory entry of a FREE slot (R28). -/
def DirEntry.freeAt (generation : Nat) : DirEntry :=
  { generation := generation, occupancy := .free, damaged := false, state := none, vehicle := none, boundPost := none }

/-- The order store at power-on (R43). -/
def Store.init : Store :=
  { slots := Vector.replicate 64 { dir := DirEntry.freeAt 0, record := none }
    index := []
    table := Vector.replicate 24 none }

/-- The arbiter after either reset (R38, R43, R44). -/
def Arbiter.init : Arbiter := { pointer := .plan, inFlight := none }

/-- The site link port at power-on (R177). -/
def Link.init : Link :=
  { receiver := .hunting, gap := 0, buffer := none, inProgress := none, posting := [], walk := .inactive
    postingEnabled := true, supervisionTime := 0, supervision := none, autonomy := false, resetCause := .powerOn
    sent := [] }

/-- A report that holds nothing (R82). -/
def Report.none : Report := { vehicle := 0, cabin := Option.none, outside := Option.none }

/-- A pending report with no field held (R80). -/
def PendingReport.none : PendingReport := { vehicle := Option.none, cabin := Option.none, outside := Option.none }

/-- A post record at power-on (R59, R82, R83). -/
def Post.init : Post :=
  { inService := false, heater := .continuous, feedLimit := 7000, pollMode := .latent, state := .out, silent := false
    current := Report.none, held := PendingReport.none, roundMark := false, heaterState := none, age := 0
    silence := 0, baseline := none, lastCall := .none, recorded := 0, sent := none, claim := false
    finalOwed := false, fetchMark := false, condition := .none }

/-- The post bus engine at power-on (R82). -/
def Bus.init : Bus :=
  { posts := Vector.replicate 24 Post.init, rotation := 23, exchange := none, queue := [] }

/-- An input line and its filter at power-on: the filtered level low and the timer idle (R65, R146). The line itself is
taken as low. DESIGN CHOICE, log entry 7. -/
def LineFilter.init : LineFilter := { line := .low, filtered := .low, timer := none }

/-- A class entry at power-on (R103). -/
def ClassEntry.init : ClassEntry := { params := none, users := [] }

/-- The planner after either reset (R128). -/
def Planner.init : Planner := { timer := 0, replan := false, round := none, ranking := [] }

/-- The supply monitor at power-on (R155). -/
def Supply.init : Supply :=
  { counter := 0, overrange := false, interval := 0, limit := LineFilter.init, shed := LineFilter.init
    forced := .none, mode := .normal, restore := none, lastHeadroom := 0, lastPower := 0, lastSent := 0 }

/-- The site settings at power-on (R173). -/
def SiteSettings.init : SiteSettings :=
  { siteLimit := 200, limitedLevel := 100, ceiling := 120, autoCeiling := 40, rampLimit := 30, meterConstant := 10
    meterEdge := .rising, restoreDelay := 180, roundPeriod := 30, startLead := 15, grace := 20, departWindow := 30
    horizon := 720, fallback := -200 }

/-- A post source with no event flag set. -/
def PostEvents.init : PostEvents := { pluggedIn := false, pluggedOut := false, call := false }

/-- The attention unit at power-on (R163): CLOCK NOT SET, a level flag, follows the clear clock-set indicator. -/
def Attention.init : Attention :=
  { modeChange := false, meterOverrange := false, roundOverrun := false, changeDropped := false
    posts := Vector.replicate 24 PostEvents.init, masks := 0, groups := 0, dropped := none }

/-- The part right after power-on, with no command waiting. -/
def State.reset : State :=
  { clock := Clock.init, store := Store.init, arbiter := Arbiter.init, link := Link.init, bus := Bus.init
    plug := Vector.replicate 24 LineFilter.init, classes := Vector.replicate 16 ClassEntry.init
    planner := Planner.init, supply := Supply.init, site := SiteSettings.init, attention := Attention.init
    pending := [] }

end Sys2Proof.Machine
end

