-- ==== Sys2Proof/Machine/Operands.lean ====
section
/-! DEFINITION. The operand forms of the two links: the CRC-8, request frames and their fields, REPORT frames, the
frames the part sends, record images and the codes of the enumerations (12). -/

namespace Sys2Proof

namespace Machine

/-! ### Bytes (R178) -/

/-- A number as two bytes, most significant first. -/
def be16 (n : Nat) : List Byte := [BitVec.ofNat 8 (n / 256), BitVec.ofNat 8 n]

/-- A number as four bytes, most significant first. -/
def be32 (n : Nat) : List Byte := be16 (n / 65536) ++ be16 n

/-- A signed number as two bytes in two's complement. -/
def beS16 (i : Int) : List Byte := be16 (i % 65536).toNat

/-- A number as one byte. -/
def byte (n : Nat) : Byte := BitVec.ofNat 8 n

/-- A yes-or-no field (R180). -/
def yesNo (b : Bool) : Byte := if b then 1 else 0

/-- One bit of a byte of indicators. -/
def bitAt (b : Bool) (n : Nat) : Byte := if b then BitVec.ofNat 8 (2 ^ n) else 0

/-- Two bytes read most significant first. -/
def u16 (hi lo : Byte) : Nat := hi.toNat * 256 + lo.toNat

/-- Two bytes read as a signed number in two's complement. -/
def s16 (hi lo : Byte) : Int := if u16 hi lo < 32768 then u16 hi lo else u16 hi lo - 65536

/-! ### The check (R179) -/

/-- One bit of the CRC-8 register's advance. -/
def crcShift (r : Byte) : Byte := if r.msb then (r <<< 1) ^^^ Config.crcPoly else r <<< 1

/-- The CRC-8 register after one byte, most significant bit first. -/
def crcByte (r b : Byte) : Byte :=
  crcShift (crcShift (crcShift (crcShift (crcShift (crcShift (crcShift (crcShift (r ^^^ b))))))))

/-- The CRC-8 of a list of bytes (R179). -/
def crc8 (bytes : List Byte) : Byte := bytes.foldl crcByte Config.crcInit

/-! ### Enumerations (R180) -/

/-- The status code of a reply. -/
def Status.code : Status → Byte
  | .done => 0x00
  | .posted => 0x01
  | .restarted => 0x02
  | .endOfWalk => 0x03
  | .badRequest => 0x10
  | .checkError => 0x11
  | .badField => 0x12
  | .unknownHandle => 0x13
  | .closed => 0x14
  | .notClosed => 0x15
  | .noClass => 0x16
  | .tableFull => 0x17
  | .vehicleFull => 0x18
  | .duplicate => 0x19
  | .past => 0x1A
  | .locked => 0x1B
  | .inUse => 0x1C
  | .busy => 0x1D
  | .noClock => 0x1E

/-- The code of an order state. -/
def OrderState.code : OrderState → Byte
  | .pending => 0
  | .waiting => 1
  | .heating => 2
  | .holding => 3
  | .stalled => 4
  | .closed => 5

/-- The code of a tier. -/
def Tier.code : Tier → Byte
  | .firstOut => 0
  | .regular => 1
  | .flexible => 2

/-- The tier of a code, if it is one of the three. -/
def tierOf? : Nat → Option Tier
  | 0 => some .firstOut
  | 1 => some .regular
  | 2 => some .flexible
  | _ => none

/-- The code of a stall cause. -/
def StallCause.code : StallCause → Byte
  | .heaterFault => 1
  | .staleReading => 2
  | .postSilent => 3

/-- The code of an outcome. -/
def OrderOutcome.code : OrderOutcome → Byte
  | .met => 1
  | .late => 2
  | .lapsed => 3
  | .withdrawn => 4
  | .broken => 5

/-- The code of a heater interface. -/
def Heater.code : Heater → Byte
  | .continuous => 0
  | .stepped => 1
  | .switched => 2

/-- The heater interface of a code. -/
def heaterOf? : Nat → Option Heater
  | 0 => some .continuous
  | 1 => some .stepped
  | 2 => some .switched
  | _ => none

/-- The service setting of a code: true for IN. -/
def serviceOf? : Nat → Option Bool
  | 0 => some false
  | 1 => some true
  | _ => none

/-- The code of a poll mode. -/
def PollMode.code : PollMode → Byte
  | .latent => 0
  | .direct => 1

/-- The poll mode of a code. -/
def pollModeOf? : Nat → Option PollMode
  | 0 => some .latent
  | 1 => some .direct
  | _ => none

/-- The code of a post state. -/
def PostState.code : PostState → Byte
  | .out => 0
  | .empty => 1
  | .occupied => 2
  | .bound => 3

/-- The code of a heater state, 0xFF for none. -/
def heaterStateCode : Option HeaterState → Byte
  | none => 0xFF
  | some .off => 0
  | some .running => 1
  | some .fault => 2

/-- The heater state of a code. -/
def heaterStateOf? : Nat → Option HeaterState
  | 0 => some .off
  | 1 => some .running
  | 2 => some .fault
  | _ => none

/-- The code of a call code. -/
def CallCode.code : CallCode → Byte
  | .none => 0
  | .leaving => 1
  | .help => 2

/-- The call code of a code. -/
def callOf? : Nat → Option CallCode
  | 0 => some .none
  | 1 => some .leaving
  | 2 => some .help
  | _ => none

/-- The code of a site mode. -/
def SiteMode.code : SiteMode → Byte
  | .normal => 0
  | .limited => 1
  | .shed => 2
  | .restoring => 3

/-- The code of a forced mode. -/
def ForcedMode.code : ForcedMode → Byte
  | .none => 0
  | .limited => 1
  | .shed => 2

/-- The forced mode of a code. -/
def forcedOf? : Nat → Option ForcedMode
  | 0 => some .none
  | 1 => some .limited
  | 2 => some .shed
  | _ => none

end Machine

/-- The code of a meter edge (R180, SET SITE). -/
def Edge.code : Edge → Byte
  | .rising => 0
  | .falling => 1

namespace Machine

/-- The meter edge of a code. -/
def edgeOf? : Nat → Option Edge
  | 0 => some .rising
  | 1 => some .falling
  | _ => none

/-- The code of a reset cause. -/
def ResetCause.code : ResetCause → Byte
  | .powerOn => 0
  | .restart => 1

/-- The code of the round state: IDLE while no round is in flight (section 8.1). -/
def roundStateCode : Option Round → Byte
  | none => 0
  | some r =>
    match r.phase with
    | .snapshot _ => 1
    | .sweep _ => 2
    | .compute => 3
    | .writeBack _ => 4

/-! ### Numbers that name something -/

/-- The class a number names, 0 to 15. -/
def classOf? (n : Nat) : Option (Fin 16) := if h : n < 16 then some ⟨n, h⟩ else none

/-- The post a number names, 0 to 23. -/
def postOf? (n : Nat) : Option (Fin 24) := if h : n < 24 then some ⟨n, h⟩ else none

/-- The attention source a number names, 0 to 31. -/
def sourceOf? (n : Nat) : Option (Fin 32) := if h : n < 32 then some ⟨n, h⟩ else none

end Machine

/-- The handle a request's two bytes name; a slot number above 63 names none (R27). -/
def RawHandle.handle? (r : RawHandle) : Option Machine.Handle := if h : r.slot < 64 then some ⟨⟨r.slot, h⟩, r.gen⟩ else none

namespace Machine

/-- A handle as a request carries it. -/
def Handle.raw (h : Handle) : RawHandle := { slot := h.slot, gen := h.gen }

end Machine

/-- A request's handle as two bytes. -/
def RawHandle.bytes (r : RawHandle) : List Byte := [Machine.byte r.slot, Machine.byte r.gen]

namespace Machine

/-- A handle as two bytes (R178). -/
def Handle.bytes (h : Handle) : List Byte := h.raw.bytes

/-- A handle or none, sent as 0xFF 0xFF (R178). -/
def handleBytes : Option Handle → List Byte
  | none => [0xFF, 0xFF]
  | some h => h.bytes

/-- A vehicle number names a vehicle when it lies in 1 to 65534 (R1). -/
def vehicleOk (v : Nat) : Bool := 1 ≤ v && v ≤ 65534

/-- A minute-of-week lies in 0 to 10079. -/
def minuteOk (m : Nat) : Bool := m < Config.weekMinutes

/-! ### The fields AMEND and PLACE name (R180) -/

end Machine

/-- The earliest start PLACE supplies. -/
def PlaceFields.earliest? (f : PlaceFields) : Option Nat := if f.presence.getLsbD 0 then some f.earliest else none

/-- The hold extension PLACE supplies. -/
def PlaceFields.hold? (f : PlaceFields) : Option Nat := if f.presence.getLsbD 1 then some f.hold else none

/-- The departure AMEND names. -/
def AmendFields.departure? (f : AmendFields) : Option Nat := if f.mask.getLsbD 0 then some f.departure else none

/-- The target AMEND names. -/
def AmendFields.target? (f : AmendFields) : Option Int := if f.mask.getLsbD 1 then some f.target else none

/-- The class AMEND names. -/
def AmendFields.cls? (f : AmendFields) : Option Nat := if f.mask.getLsbD 2 then some f.cls else none

/-- The tier AMEND names. -/
def AmendFields.tier? (f : AmendFields) : Option Nat := if f.mask.getLsbD 3 then some f.tier else none

/-- The vehicle number AMEND names. -/
def AmendFields.vehicle? (f : AmendFields) : Option Nat := if f.mask.getLsbD 4 then some f.vehicle else none

/-- The earliest start AMEND sets. -/
def AmendFields.setEarliest? (f : AmendFields) : Option Nat := if f.mask.getLsbD 5 then some f.earliest else none

/-- AMEND clears the earliest start. -/
def AmendFields.clearsEarliest (f : AmendFields) : Bool := f.mask.getLsbD 6

/-- The hold extension AMEND sets. -/
def AmendFields.setHold? (f : AmendFields) : Option Nat := if f.mask.getLsbD 7 then some f.hold else none

/-- AMEND clears the hold extension. -/
def AmendFields.clearsHold (f : AmendFields) : Bool := f.mask.getLsbD 8

/-- AMEND names a field. Mask bits 9 to 15 name none (log entry 18). -/
def AmendFields.namesAny (f : AmendFields) : Bool := f.mask.extractLsb' 0 9 != 0

/-- The service setting SET POST names. -/
def SetPostFields.service? (f : SetPostFields) : Option Nat := if f.mask.getLsbD 0 then some f.service else none

/-- The heater interface SET POST names. -/
def SetPostFields.heater? (f : SetPostFields) : Option Nat := if f.mask.getLsbD 1 then some f.interface_ else none

/-- The feed limit SET POST names. -/
def SetPostFields.feedLimit? (f : SetPostFields) : Option Nat := if f.mask.getLsbD 2 then some f.feedLimit else none

/-- The poll mode SET POST names. -/
def SetPostFields.pollMode? (f : SetPostFields) : Option Nat := if f.mask.getLsbD 3 then some f.pollMode else none

namespace Machine

/-! ### Request frames (R180) -/

/-- The handle a change names. -/
def Change.handle : Change → RawHandle
  | .amend f => f.handle
  | .withdraw h => h
  | .release h => h

/-- The request code of a change. -/
def Change.code : Change → Byte
  | .amend _ => 0x02
  | .withdraw _ => 0x03
  | .release _ => 0x04

/-- The request code of a request. -/
def Request.code : Request → Byte
  | .place _ => 0x01
  | .change c => c.code
  | .lookup _ => 0x05
  | .find _ => 0x06
  | .walkStart _ => 0x07
  | .walkNext => 0x07
  | .setSite _ => 0x08
  | .readSite => 0x09
  | .setLink _ _ => 0x0A
  | .setPost _ => 0x0B
  | .readPost _ => 0x0C
  | .setClass _ => 0x0D
  | .clearClass _ => 0x0E
  | .readClass _ => 0x0F
  | .setTime _ _ => 0x10
  | .readTime => 0x11
  | .setMode _ => 0x12
  | .replan => 0x13
  | .readAttention _ => 0x14
  | .clearAttention _ _ => 0x15
  | .setMasks _ _ => 0x16

/-- The fields of PLACE in their payload. -/
def parsePlace : List Byte → Option Request
  | [p, v1, v0, d1, d0, t1, t0, c, ti, e1, e0, h] =>
    some (.place { presence := p, vehicle := u16 v1 v0, departure := u16 d1 d0, target := s16 t1 t0, cls := c.toNat
                   tier := ti.toNat, earliest := u16 e1 e0, hold := h.toNat })
  | _ => none

/-- The fields of AMEND in their payload. -/
def parseAmend : List Byte → Option Request
  | [s, g, m1, m0, v1, v0, d1, d0, t1, t0, c, ti, e1, e0, h] =>
    some (.change (.amend { handle := { slot := s.toNat, gen := g.toNat }, mask := m1 ++ m0, vehicle := u16 v1 v0
                            departure := u16 d1 d0, target := s16 t1 t0, cls := c.toNat, tier := ti.toNat
                            earliest := u16 e1 e0, hold := h.toNat }))
  | _ => none

/-- A handle payload. -/
def parseHandle (k : RawHandle → Request) : List Byte → Option Request
  | [s, g] => some (k { slot := s.toNat, gen := g.toNat })
  | _ => none

/-- A one-byte payload. -/
def parseByte (k : Nat → Request) : List Byte → Option Request
  | [b] => some (k b.toNat)
  | _ => none

/-- An empty payload. -/
def parseEmpty (r : Request) : List Byte → Option Request
  | [] => some r
  | _ => none

/-- The vehicle number of FIND. -/
def parseFind : List Byte → Option Request
  | [v1, v0] => some (.find (u16 v1 v0))
  | _ => none

/-- The form byte of WALK: 0x02 is NEXT, every other value a START form. -/
def walkRequest (form : Nat) : Request := if form = 2 then .walkNext else .walkStart form

/-- The fields of SET SITE in their payload. -/
def parseSetSite : List Byte → Option Request
  | [l1, l0, r1, r0, c1, c0, a1, a0, p1, p0, k, e, d1, d0, rp, sl, gr, dw, h1, h0, f1, f0] =>
    some (.setSite { siteLimit := u16 l1 l0, limitedLevel := u16 r1 r0, ceiling := u16 c1 c0, autoCeiling := u16 a1 a0
                     rampLimit := u16 p1 p0, meterConstant := k.toNat, meterEdge := e.toNat, restoreDelay := u16 d1 d0
                     roundPeriod := rp.toNat, startLead := sl.toNat, grace := gr.toNat, departWindow := dw.toNat
                     horizon := u16 h1 h0, fallback := s16 f1 f0 })
  | _ => none

/-- The fields of SET LINK in their payload. -/
def parseSetLink : List Byte → Option Request
  | [p, t1, t0] => some (.setLink p.toNat (u16 t1 t0))
  | _ => none

/-- The fields of SET POST in their payload. -/
def parseSetPost : List Byte → Option Request
  | [p, m, s, i, f1, f0, q] =>
    some (.setPost { post := p.toNat, mask := m, service := s.toNat, interface_ := i.toNat, feedLimit := u16 f1 f0
                     pollMode := q.toNat })
  | _ => none

/-- The fields of SET CLASS in their payload. -/
def parseSetClass : List Byte → Option Request
  | [n, c, g, x1, x0, y1, y0, h, m] =>
    some (.setClass { cls := n.toNat, c := c.toNat, g := g.toNat, pmax := u16 x1 x0, pmin := u16 y1 y0, h := h.toNat
                      m := m.toNat })
  | _ => none

/-- The fields of SET TIME in their payload. -/
def parseSetTime : List Byte → Option Request
  | [m1, m0, s] => some (.setTime (u16 m1 m0) s.toNat)
  | _ => none

/-- The source of READ ATTENTION: no payload for the unnamed form. -/
def parseReadAttention : List Byte → Option Request
  | [] => some (.readAttention none)
  | [s] => some (.readAttention (some s.toNat))
  | _ => none

/-- The fields of CLEAR ATTENTION in their payload. -/
def parseClearAttention : List Byte → Option Request
  | [s, f] => some (.clearAttention s.toNat f)
  | _ => none

/-- The fields of SET MASKS in their payload: byte k bit j is source 8k + j. -/
def parseSetMasks : List Byte → Option Request
  | [m0, m1, m2, m3, g] => some (.setMasks (m3 ++ m2 ++ m1 ++ m0) g)
  | _ => none

/-- The request of a frame: none when its code is not one of the part's requests or its payload length is not the one
that request's fields take (R165, R180). -/
def parseRequest (code : Byte) (payload : List Byte) : Option Request :=
  match code.toNat with
  | 0x01 => parsePlace payload
  | 0x02 => parseAmend payload
  | 0x03 => parseHandle (fun h => .change (.withdraw h)) payload
  | 0x04 => parseHandle (fun h => .change (.release h)) payload
  | 0x05 => parseHandle .lookup payload
  | 0x06 => parseFind payload
  | 0x07 => parseByte walkRequest payload
  | 0x08 => parseSetSite payload
  | 0x09 => parseEmpty .readSite payload
  | 0x0A => parseSetLink payload
  | 0x0B => parseSetPost payload
  | 0x0C => parseByte .readPost payload
  | 0x0D => parseSetClass payload
  | 0x0E => parseByte .clearClass payload
  | 0x0F => parseByte .readClass payload
  | 0x10 => parseSetTime payload
  | 0x11 => parseEmpty .readTime payload
  | 0x12 => parseByte .setMode payload
  | 0x13 => parseEmpty .replan payload
  | 0x14 => parseReadAttention payload
  | 0x15 => parseClearAttention payload
  | 0x16 => parseSetMasks payload
  | _ => none

/-! ### Frames the part sends -/

/-- A reply frame as bytes (R180); the check covers the bytes after the start byte (R179). -/
def Reply.frame (r : Reply) : List Byte :=
  let body := [byte r.payload.length, r.code, r.tag, r.status.code, yesNo r.clamped] ++ r.payload
  Config.siteStart :: body ++ [crc8 body]

/-- The POLL or SETPOINT frame of an exchange (R182). -/
def Exchange.frame (x : Exchange) : List Byte :=
  let body :=
    match x.level with
    | none => [byte x.post, 0x01]
    | some l => [byte x.post, 0x02, byte l]
  Config.busStart :: body ++ [crc8 body]

/-! ### REPORT frames (R71, R182, R183) -/

/-- The fields of a REPORT as the engine reads them. -/
structure ReportFields where
  vehicle : Nat
  cabin   : Option Int
  outside : Option Int
  heater  : HeaterState
  energy  : Nat
  call    : CallCode
  applied : Nat
  deriving DecidableEq, Repr

/-- A reading carried by a REPORT: clamped to −500 to 600 tenths when present (R71). -/
def reading (present : Bool) (hi lo : Byte) : Option Int :=
  if present then some (clampInt (-500) 600 (s16 hi lo)) else none

/-- The REPORT of the post addressed in a frame received during an exchange; none when a test of R183 fails or the
heater state or the call code lies outside its codes (R71). Vehicle number 65535 is read as 0, an applied level above
100 as 100 (R71). -/
def parseReport (post : Fin 24) : List Byte → Option ReportFields
  | [st, ad, kd, v1, v0, pr, c1, c0, o1, o0, hs, e1, e0, cc, al, ck] =>
    if st = Config.busStart ∧ ck = crc8 [ad, kd, v1, v0, pr, c1, c0, o1, o0, hs, e1, e0, cc, al] ∧ ad = byte post ∧
        kd = 0x81 then
      match heaterStateOf? hs.toNat, callOf? cc.toNat with
      | some heater, some call =>
        some { vehicle := if u16 v1 v0 = 65535 then 0 else u16 v1 v0
               cabin := reading (pr.getLsbD 0) c1 c0
               outside := reading (pr.getLsbD 1) o1 o0
               heater := heater, energy := u16 e1 e0, call := call, applied := min al.toNat 100 }
      | _, _ => none
    else none
  | _ => none

/-! ### Record images (R181) -/

/-- The presence byte of an order record image. -/
def Order.presence (o : Order) : Byte :=
  bitAt o.earliest.isSome 0 ||| bitAt o.hold.isSome 1 ||| bitAt o.boundPost.isSome 2 ||| bitAt o.stall.isSome 3 |||
    bitAt o.reached.isSome 4 ||| bitAt o.estimate.isSome 5 ||| bitAt o.outcome.isSome 6

/-- The estimate part of an order record image; an absent part is sent as 0. -/
def estimateBytes : Option Estimate → List Byte
  | none => List.replicate 12 0
  | some e =>
    be16 e.liftEnergy ++ be16 e.lossPower ++ be16 e.timeToTarget ++ be16 e.latestStart ++ beS16 e.slack ++ be16 e.request

/-- The UNREACHABLE indicator of a record. -/
def Order.unreachable (o : Order) : Bool := o.estimate.any Estimate.unreachable

/-- The order record image, 39 bytes. -/
def Order.image (o : Order) : List Byte :=
  o.handle.bytes ++ [o.presence] ++ be16 o.vehicle ++ be16 o.departure ++ beS16 o.target ++
    [byte o.cls, o.tier.code, o.state.code] ++ be16 (o.earliest.getD 0) ++
    [byte (o.hold.getD 0), byte (o.boundPost.elim 0 (fun p => (p : Nat))), o.stall.elim 0 StallCause.code] ++
    be16 (o.reached.getD 0) ++ estimateBytes o.estimate ++ be16 o.grant ++
    [bitAt o.short 0 ||| bitAt o.behind 1 ||| bitAt o.unreachable 2] ++ be16 o.energy ++
    [o.outcome.elim 0 (fun x => x.1.code)] ++ be16 (o.outcome.elim 0 Prod.snd)

/-- The damaged form of a record (R41, R181): handle, vehicle number, state CLOSED, outcome BROKEN, DAMAGED. -/
def damagedImage (h : Handle) (vehicle : Nat) : List Byte :=
  h.bytes ++ [0] ++ be16 vehicle ++ List.replicate 6 0 ++ [OrderState.closed.code] ++ List.replicate 21 0 ++
    [bitAt true 3] ++ List.replicate 2 0 ++ [OrderOutcome.broken.code] ++ be16 0

/-- The post record image, 34 bytes, with the handle of the post's binding-table entry (R63). -/
def Post.image (p : Post) (n : Fin 24) (entry : Option Handle) : List Byte :=
  [byte n, yesNo p.inService, p.heater.code] ++ be16 p.feedLimit ++ [p.pollMode.code, p.state.code] ++
    [bitAt p.silent 0 ||| bitAt p.sent.isNone 1 ||| bitAt p.finalOwed 2 ||| bitAt p.baseline.isSome 3 |||
      bitAt p.roundMark 4] ++ handleBytes entry ++
    [bitAt p.current.cabin.isSome 0 ||| bitAt p.current.outside.isSome 1] ++ be16 p.current.vehicle ++
    beS16 (p.current.cabin.getD 0) ++ beS16 (p.current.outside.getD 0) ++
    [heaterStateCode p.heaterState, byte p.age] ++
    [bitAt p.held.vehicle.isSome 0 ||| bitAt p.held.cabin.isSome 1 ||| bitAt p.held.outside.isSome 2 |||
      bitAt (p.held.outside.any Option.isSome) 3] ++
    be16 (p.held.vehicle.getD 0) ++ beS16 (p.held.cabin.getD 0) ++ beS16 ((p.held.outside.getD none).getD 0) ++
    [byte p.silence] ++ be16 p.recorded ++ be16 (p.sent.getD 0) ++ be16 (p.baseline.getD 0) ++ [p.lastCall.code]

/-- The class entry image, 11 bytes (R102); an undefined entry sends its parameters as 0. -/
def ClassEntry.image (e : ClassEntry) (n : Fin 16) : List Byte :=
  let p := e.params.getD { c := 0, g := 0, pmax := 0, pmin := 0, h := 0, m := 0 }
  [byte n, yesNo e.params.isSome, byte p.c, byte p.g] ++ be16 p.pmax ++ be16 p.pmin ++
    [byte p.h, byte p.m, byte e.users.length]

/-- The site settings at the widths of the SET SITE payload, 22 bytes. -/
def SiteSettings.bytes (x : SiteSettings) : List Byte :=
  be16 x.siteLimit ++ be16 x.limitedLevel ++ be16 x.ceiling ++ be16 x.autoCeiling ++ be16 x.rampLimit ++
    [byte x.meterConstant, x.meterEdge.code] ++ be16 x.restoreDelay ++
    [byte x.roundPeriod, byte x.startLead, byte x.grace, byte x.departWindow] ++ be16 x.horizon ++ beS16 x.fallback

/-- The READ SITE reply payload, 44 bytes (R174, R180). -/
def State.siteImage (s : State) : List Byte :=
  s.site.bytes ++ [yesNo s.link.postingEnabled] ++ be16 s.link.supervisionTime ++
    [s.supply.mode.code, s.supply.forced.code, yesNo s.link.autonomy] ++ be32 s.supply.lastHeadroom ++
    be32 s.supply.lastPower ++ be32 s.supply.lastSent ++
    [roundStateCode s.planner.round, yesNo s.planner.replan, byte s.link.posting.length, s.link.resetCause.code]

/-- The READ TIME reply payload (R50, R180). -/
def Clock.image (c : Clock) : List Byte := be16 c.minute ++ [byte c.second, yesNo c.isSet]

/-- The FIND reply payload, 11 bytes (R33, R180). -/
def findImage (vehicle : Nat) (handles : List Handle) : List Byte :=
  be16 vehicle ++ [byte handles.length] ++ (handles.take 4).flatMap Handle.bytes ++
    List.replicate (8 - 2 * (handles.take 4).length) 0xFF

end Machine

end Sys2Proof
end

