-- ==== Sys2Proof/Machine/Flags.lean ====
section
/-! DEFINITION. The attention unit's flags (10): event flags set and cleared, level flags computed from their
conditions, pending and enabled sources, and the attention line. -/

namespace Sys2Proof.Machine

/-! ### Setting event flags (R157, R158) -/

/-- MODE CHANGE occurs. -/
def Attention.setModeChange (a : Attention) : Attention := { a with modeChange := true }

/-- METER OVERRANGE occurs. -/
def Attention.setMeterOverrange (a : Attention) : Attention := { a with meterOverrange := true }

/-- ROUND OVERRUN occurs. -/
def Attention.setRoundOverrun (a : Attention) : Attention := { a with roundOverrun := true }

/-- A posted change is dropped: CHANGE DROPPED occurs and the last dropped change is replaced (R157, R169). -/
def Attention.drop (a : Attention) (c : Change) (reason : Status) : Attention :=
  { a with changeDropped := true, dropped := some { change := c, reason := reason } }

/-- PLUGGED-IN occurs at a post. -/
def Attention.setPluggedIn (a : Attention) (p : Fin 24) : Attention :=
  { a with posts := a.posts.set p { a.posts[p] with pluggedIn := true } }

/-- PLUGGED-OUT occurs at a post. -/
def Attention.setPluggedOut (a : Attention) (p : Fin 24) : Attention :=
  { a with posts := a.posts.set p { a.posts[p] with pluggedOut := true } }

/-- CALL occurs at a post. -/
def Attention.setCall (a : Attention) (p : Fin 24) : Attention :=
  { a with posts := a.posts.set p { a.posts[p] with call := true } }

/-! ### Level flags (R30, R51, R157, R158) -/

/-- ORDER BEHIND: some order has BEHIND set. -/
def Store.anyBehind (st : Store) : Bool :=
  st.slots.toList.any (fun x => x.record.any (fun r => r.order.behind))

/-- ORDER CLOSED: some slot is CLOSED, DAMAGED or not. -/
def Store.anyClosed (st : Store) : Bool := st.slots.toList.any (fun x => x.dir.occupancy = .closed)

/-- TABLE FULL: no slot is FREE. -/
def Store.full (st : Store) : Bool := st.slots.toList.all (fun x => x.dir.occupancy ≠ .free)

/-! ### Sources (R156, R159) -/

/-- The post of a post source: source 8 + n is the source of post n. -/
def sourcePost? (n : Fin 32) : Option (Fin 24) := if h : 8 ≤ n.val then some ⟨n.val - 8, by omega⟩ else none

/-- The six flags of a post source, coded as in the CLEAR ATTENTION flag set (R180): bits 0 to 5 are PLUGGED-IN,
PLUGGED-OUT, CALL, UNORDERED, CONFLICT, SILENT. -/
def State.postFlags (s : State) (p : Fin 24) : Byte :=
  bitAt s.attention.posts[p].pluggedIn 0 ||| bitAt s.attention.posts[p].pluggedOut 1 |||
    bitAt s.attention.posts[p].call 2 ||| bitAt (s.bus.posts[p].condition = .unordered) 3 |||
    bitAt (s.bus.posts[p].condition = .conflict) 4 ||| bitAt s.bus.posts[p].silent 5

/-- The flag of a site source (R157). -/
def State.siteFlag (s : State) : Nat → Bool
  | 0 => s.store.anyBehind
  | 1 => s.attention.modeChange
  | 2 => s.attention.meterOverrange
  | 3 => s.attention.roundOverrun
  | 4 => s.attention.changeDropped
  | 5 => s.store.anyClosed
  | 6 => s.store.full
  | 7 => !s.clock.isSet
  | _ => false

/-- The flags of a source, coded as in the CLEAR ATTENTION flag set. -/
def State.flags (s : State) (n : Fin 32) : Byte :=
  match sourcePost? n with
  | some p => s.postFlags p
  | none => bitAt (s.siteFlag n) 0

/-- A source is pending while at least one of its flags is set (R156). -/
def State.sourcePending (s : State) (n : Fin 32) : Bool := s.flags n != 0

/-- A source is enabled while its mask is open and its group's enable is on (R159). -/
def State.sourceEnabled (s : State) (n : Fin 32) : Bool :=
  s.attention.masks.getLsbD n && s.attention.groups.getLsbD (n.val / 8)

/-- The sources that are pending and enabled, in order of urgency. -/
def State.waitingSources (s : State) : List (Fin 32) :=
  (List.finRange 32).filter (fun n => s.sourcePending n && s.sourceEnabled n)

/-- The attention line is active while at least one source is both pending and enabled (R159). -/
def State.attentionLine (s : State) : Bool := !s.waitingSources.isEmpty

/-! ### READ ATTENTION and CLEAR ATTENTION (R160, R161) -/

/-- The values READ ATTENTION returns beside a source's flags (the table of R160), four bytes (R180). -/
def State.sourceValues (s : State) (n : Fin 32) : List Byte :=
  match sourcePost? n with
  | some p => [s.bus.posts[p].state.code, s.bus.posts[p].lastCall.code, 0, 0]
  | none =>
    if n = 1 then [s.supply.mode.code, s.supply.forced.code, yesNo s.link.autonomy, 0]
    else if n = 4 then
      match s.attention.dropped with
      | none => [0xFF, 0xFF, 0, 0]
      | some d => d.change.handle.bytes ++ [d.change.code, d.reason.code]
    else [0, 0, 0, 0]

/-- The READ ATTENTION reply payload, 8 bytes. -/
def State.attentionImage (s : State) : Option (Fin 32) → List Byte
  | none => [0xFF, 0, 0, byte s.waitingSources.length, 0, 0, 0, 0]
  | some n =>
    [byte n, s.flags n, bitAt (s.sourcePending n) 0 ||| bitAt (s.sourceEnabled n) 1, byte s.waitingSources.length] ++
      s.sourceValues n

/-- A flag set may name the flags the source has (R161, R180). -/
def flagSetOk (n : Fin 32) (set : Byte) : Bool :=
  match sourcePost? n with
  | some _ => set.toNat < 64
  | none => set.toNat < 2

/-- The event flags of a post source less those named. -/
def PostEvents.clear (e : PostEvents) (set : Byte) : PostEvents :=
  { pluggedIn := e.pluggedIn && !set.getLsbD 0
    pluggedOut := e.pluggedOut && !set.getLsbD 1
    call := e.call && !set.getLsbD 2 }

/-- Clears the named event flags of a source; level flags follow their conditions (R161). -/
def Attention.clear (a : Attention) (n : Fin 32) (set : Byte) : Attention :=
  match sourcePost? n with
  | some p => { a with posts := a.posts.set p (a.posts[p].clear set) }
  | none =>
    { a with
      modeChange := a.modeChange && !(n = 1 && set.getLsbD 0)
      meterOverrange := a.meterOverrange && !(n = 2 && set.getLsbD 0)
      roundOverrun := a.roundOverrun && !(n = 3 && set.getLsbD 0)
      changeDropped := a.changeDropped && !(n = 4 && set.getLsbD 0) }

/-- Every event flag clear and no dropped change, the masks and enables kept (R163, restart). -/
def Attention.restart (a : Attention) : Attention :=
  { Attention.init with masks := a.masks, groups := a.groups }

end Sys2Proof.Machine
end

