-- ==== Sys2Proof/Machine/Ops.lean ====
section
/-! DEFINITION. The shared operations: reading depot time, the order store and its vehicle index, the post records
and the engine's list of accesses, the arbiter, the start of a round, the site link's replies, and the notices of an
unbinding. Each is a function on the block that owns the state; `State` functions say which blocks an event touches. -/

namespace Sys2Proof.Machine

/-! ### Depot time (03 section 4.3) -/

/-- The ahead-minutes of a stored minute against a present minute (R52): 0 to 8640 when it reads as ahead, −1439 to −1
when it reads as behind. -/
def aheadMinutes (now t : Nat) : Int :=
  let d := ((t : Int) - now) % Config.weekMinutes
  if d ≤ Config.aheadLimit then d else d - Config.weekMinutes

/-- A stored time reads as behind (R52). -/
def isBehind (now t : Nat) : Bool := aheadMinutes now t < 0

/-- A stored time reads as behind by more than a limit (R55, R56). -/
def behindBy (now t limit : Nat) : Bool := aheadMinutes now t < -(limit : Int)

/-- One stored time lies after another, both read against the same now (R53). -/
def liesAfter (now t1 t2 : Nat) : Bool := aheadMinutes now t2 < aheadMinutes now t1

/-- The earliest-start clamp acts: the earliest start reads as ahead, by more minutes than the departure does (R9, R53;
log entry 10). -/
def clampsEarliest (now earliest departure : Nat) : Bool := !isBehind now earliest && liesAfter now earliest departure

/-- The clock after a second boundary (R45). -/
def Clock.tick (c : Clock) : Clock :=
  if c.second < 59 then { c with prescaler := 0, second := c.second + 1 }
  else { c with prescaler := 0, second := 0, minute := if c.minute < 10079 then c.minute + 1 else 0 }

/-! ### Slots, directory and records (02) -/

/-- Every slot number, ascending. -/
def allSlots : List (Fin 64) := List.finRange 64

/-- Every post number, ascending. -/
def allPosts : List (Fin 24) := List.finRange 24

/-- The directory entry of a slot. -/
def Store.dir (st : Store) (n : Fin 64) : DirEntry := st.slots[n].dir

/-- The handle of the order in a slot: the slot with its present generation (R10). -/
def Store.slotHandle (st : Store) (n : Fin 64) : Handle := ⟨n, (st.dir n).generation⟩

/-- The verdicts on a handle (R27). -/
inductive Verdict where
  | unknown
  | closed
  | live
  deriving DecidableEq, Repr

/-- The verdict on a handle, judged against the slot directory (R27). -/
def Store.verdict (st : Store) (h : Handle) : Verdict :=
  if (st.dir h.slot).generation = h.gen then
    match (st.dir h.slot).occupancy with
    | .free => .unknown
    | .closed => .closed
    | .live => .live
  else .unknown

/-- The verdict on a handle as a request carries it: a slot number above 63 is unknown (R27). -/
def Store.rawVerdict (st : Store) (r : RawHandle) : Verdict := r.handle?.elim .unknown st.verdict

/-- The record of a slot when its check code verifies (R39); none when it is damaged (R39, R41). -/
def Store.readOrder (st : Store) (n : Fin 64) : Option Order :=
  if (st.dir n).damaged then none
  else
    match st.slots[n].record with
    | some r => if r.codeError = 0 then some r.order else none
    | none => none

/-- Writes a record with its check code, and the copies the directory entry keeps (R28, R39). -/
def Store.writeOrder (st : Store) (n : Fin 64) (o : Order) : Store :=
  { st with
    slots := st.slots.set n
      { dir := { st.dir n with state := some o.state, vehicle := some o.vehicle, boundPost := o.boundPost }
        record := some { order := o, codeError := 0 } } }

/-- Sets a slot's occupancy. -/
def Store.setOccupancy (st : Store) (n : Fin 64) (x : Occupancy) : Store :=
  { st with slots := st.slots.set n { st.slots[n] with dir := { st.dir n with occupancy := x } } }

/-- Sets a post's binding-table entry (R34). -/
def Store.setTable (st : Store) (p : Fin 24) (h : Option Handle) : Store := { st with table := st.table.set p h }

/-- Clears the binding-table entry of the post an order was bound to, if it was (R34). -/
def Store.clearTable (st : Store) (p : Option (Fin 24)) : Store := p.elim st (fun p => st.setTable p none)

/-- The lowest-numbered FREE slot (R10, R25). -/
def Store.freeSlot (st : Store) : Option (Fin 64) := allSlots.find? (fun n => (st.dir n).occupancy = .free)

/-- Frees a slot: its generation advances by one modulo 256 and nothing else is kept (R16, R26). -/
def Store.free (st : Store) (n : Fin 64) : Store :=
  { st with
    slots := st.slots.set n { dir := DirEntry.freeAt (((st.dir n).generation + 1) % 256), record := none } }

/-! ### The vehicle index (R31 to R33) -/

/-- The list of a vehicle number; a vehicle number without a list has no entries. -/
def Store.vehicleEntries (st : Store) (v : Nat) : List IndexEntry :=
  (st.index.find? (fun l => l.vehicle = v)).elim [] VehicleList.entries

/-- Replaces the list of a vehicle number; an empty list ceases to exist (R31, R32). Lists stand in ascending vehicle
number. -/
def setVehicleList (v : Nat) (es : List IndexEntry) : List VehicleList → List VehicleList
  | [] => if es.isEmpty then [] else [{ vehicle := v, entries := es }]
  | x :: xs =>
    if x.vehicle = v then if es.isEmpty then xs else { vehicle := v, entries := es } :: xs
    else if v < x.vehicle then if es.isEmpty then x :: xs else { vehicle := v, entries := es } :: x :: xs
    else x :: setVehicleList v es xs

/-- Inserts an entry before the first entry with more ahead-minutes (R32, log entry 25). -/
def insertEntry (now : Nat) (e : IndexEntry) : List IndexEntry → List IndexEntry
  | [] => [e]
  | x :: xs => if liesAfter now x.departure e.departure then e :: x :: xs else x :: insertEntry now e xs

/-- Enters a live order in its vehicle's list at the place its departure gives it (R32). -/
def Store.indexInsert (st : Store) (now v : Nat) (e : IndexEntry) : Store :=
  { st with index := setVehicleList v (insertEntry now e (st.vehicleEntries v)) st.index }

/-- Removes an order from its vehicle's list (R32). -/
def Store.indexRemove (st : Store) (v : Nat) (h : Handle) : Store :=
  { st with index := setVehicleList v ((st.vehicleEntries v).filter (fun e => e.handle ≠ h)) st.index }

/-- Another live order of the vehicle has this departure (R31, R8, R12). -/
def Store.duplicate (st : Store) (v departure : Nat) (own : Option Handle) : Bool :=
  (st.vehicleEntries v).any (fun e => e.departure = departure && some e.handle ≠ own)

/-- The vehicle has four live orders other than this one (R31, R8, R12). -/
def Store.vehicleFull (st : Store) (v : Nat) (own : Option Handle) : Bool :=
  Config.vehicleLimit ≤ ((st.vehicleEntries v).filter (fun e => some e.handle ≠ own)).length

/-! ### Closing and damage (R17, R40, R41) -/

/-- The outcome rule (R18). -/
def outcomeRule (o : Order) : OrderOutcome :=
  if o.reached.isSome then .met
  else
    match o.state with
    | .stalled => .broken
    | .waiting | .heating | .holding => .late
    | .pending | .closed => .lapsed

/-- The record after a close (R17): what the access writes and removes, everything else kept. -/
def Order.close (o : Order) (outcome : OrderOutcome) (minute : Nat) : Order :=
  { o with
    state := .closed, outcome := some (outcome, minute), boundPost := none, stall := none, estimate := none
    grant := 0, short := false, behind := false }

/-- The record after a return to PENDING (R92). -/
def Order.toPending (o : Order) : Order :=
  { o with
    state := .pending, boundPost := none, stall := none, estimate := none, reached := none, grant := 0
    short := false, behind := false }

/-- The store's part of a close (R17): record and directory, binding table and vehicle index. -/
def Store.close (st : Store) (h : Handle) (o : Order) (outcome : OrderOutcome) (minute : Nat) : Store :=
  (((st.writeOrder h.slot (o.close outcome minute)).setOccupancy h.slot .closed).clearTable o.boundPost).indexRemove
    o.vehicle h

/-- The store's part of a close by damage (R40): the slot is marked DAMAGED and its record given up, with the effects
taken from the directory entry. -/
def Store.damage (st : Store) (h : Handle) : Store :=
  let d := st.dir h.slot
  let marked : Store :=
    { st with
      slots := st.slots.set h.slot
        { dir := { d with occupancy := .closed, damaged := true, state := some .closed, boundPost := none }
          record := none } }
  (marked.clearTable d.boundPost).indexRemove (d.vehicle.getD 0) h

/-- A CLOSED slot found damaged is marked, and its record given up (R41). -/
def Store.markDamaged (st : Store) (n : Fin 64) : Store :=
  { st with slots := st.slots.set n { dir := { st.dir n with damaged := true }, record := none } }

/-! ### User sets of the classes (R97) -/

/-- Adds a slot to a user set, ascending without repeats. -/
def insertSlot (n : Fin 64) : List (Fin 64) → List (Fin 64)
  | [] => [n]
  | x :: xs => if n < x then n :: x :: xs else if n = x then x :: xs else x :: insertSlot n xs

/-- Adds a slot to the user set of a class. -/
def addUser (cs : Vector ClassEntry 16) (c : Fin 16) (n : Fin 64) : Vector ClassEntry 16 :=
  cs.set c { cs[c] with users := insertSlot n cs[c].users }

/-- Removes a slot from whichever user set holds it. -/
def dropUser (cs : Vector ClassEntry 16) (n : Fin 64) : Vector ClassEntry 16 :=
  Vector.ofFn (fun c => { cs[c] with users := cs[c].users.filter (fun x => x ≠ n) })

/-! ### Post records (04) -/

/-- A post is owed a setpoint (R68). -/
def Post.owed (p : Post) : Bool := p.sent ≠ some p.recorded

/-- A post holds a reduction claim; an OUT post exactly while its final setpoint is owed (R69, log entry 12). -/
def Post.holdsClaim (p : Post) : Bool := if p.inService then p.claim else p.finalOwed

/-- A value lies below the sent grant, as the engine knows it. -/
def Post.belowSent (p : Post) (w : Nat) : Bool := p.sent.any (fun s => w < s)

/-- A value lies at or above the sent grant, as the engine knows it. -/
def Post.atOrAboveSent (p : Post) (w : Nat) : Bool := p.sent.any (fun s => s ≤ w)

/-- Sets the recorded grant, and with it the reduction claim (R69, R81): set when the value lies below the sent grant,
cleared when the grant is raised to the sent grant or above (log entry 13). -/
def Post.setRecorded (p : Post) (w : Nat) : Post :=
  { p with
    recorded := w
    claim := p.inService && (p.belowSent w || (p.claim && !(p.recorded < w && p.atOrAboveSent w))) }

/-- A post at the entry of the site mode into SHED (R151): grant 0, and a claim when its sent grant is above 0 or
unknown. -/
def Post.enterShed (p : Post) : Post :=
  { p.setRecorded 0 with claim := (p.setRecorded 0).claim || (p.inService && p.sent ≠ some 0) }

/-- A plug-in at an EMPTY post (R66). -/
def Post.plugIn (p : Post) : Post :=
  { p with
    state := .occupied, current := { p.current with vehicle := 0, cabin := none }, held := PendingReport.none, age := 0
    baseline := none, fetchMark := false }

/-- A plug-out at an OCCUPIED or BOUND post (R67). -/
def Post.plugOut (p : Post) : Post :=
  { p.setRecorded 0 with
    state := .empty, current := { p.current with vehicle := 0, cabin := none }, held := PendingReport.none
    baseline := none, condition := .none }

/-- Service OUT (R61). -/
def Post.serviceOut (p : Post) : Post :=
  { p with
    inService := false, state := .out, recorded := 0, current := Report.none, held := PendingReport.none, age := 0
    silence := 0, silent := false, baseline := none, claim := false, condition := .none
    finalOwed := decide (p.sent ≠ some 0) }

/-- Service IN, before the effects of a plug-in (R62). -/
def Post.serviceIn (p : Post) : Post :=
  { p with
    inService := true, state := .empty, sent := none, claim := true, finalOwed := false, age := 0, silence := 0 }

/-- The unbinding notice at a post (R35, R77, R94). -/
def Post.unbound (p : Post) : Post :=
  { p.setRecorded 0 with baseline := none, state := if p.state = .bound then .occupied else p.state }

/-- A post at a restart (R82): configuration kept, run-time values of power-on, an in-service post EMPTY with its claim
set. -/
def Post.restart (p : Post) : Post :=
  { Post.init with
    inService := p.inService, heater := p.heater, feedLimit := p.feedLimit, pollMode := p.pollMode
    state := if p.inService then .empty else .out, claim := p.inService }

/-- A post can receive a binding attempt (R84): in service, OCCUPIED, not SILENT, with a vehicle number. -/
def Post.qualifies (p : Post) : Bool := p.inService && p.state = .occupied && !p.silent && p.current.vehicle ≠ 0

/-! ### The engine (04, 05) -/

/-- Changes one post record. -/
def Bus.modify (b : Bus) (n : Fin 24) (f : Post → Post) : Bus := { b with posts := b.posts.set n (f b.posts[n]) }

/-- Changes every post record. -/
def Bus.mapPosts (b : Bus) (f : Post → Post) : Bus := { b with posts := Vector.ofFn (fun i => f b.posts[i]) }

/-- Adds accesses to the end of the engine's list (R37). -/
def Bus.present (b : Bus) (l : List PostAccess) : Bus := { b with queue := b.queue ++ l }

/-- Binding attempts at the selected posts that qualify and have none waiting, in ascending post number (R84, R85). -/
def Bus.attempts (b : Bus) (sel : Fin 24 → Bool) : List PostAccess :=
  (allPosts.filter (fun n => sel n && b.posts[n].qualifies && !b.queue.contains (.bind n))).map .bind

/-- Triggers a binding attempt at the selected posts (R84, R85). -/
def Bus.trigger (b : Bus) (sel : Fin 24 → Bool) : Bus := b.present (b.attempts sel)

/-- An access on the order bound at a post, targeted at the handle its binding-table entry names when the event arises
(R36, R76). -/
def boundAccess (table : Vector (Option Handle) 24) (n : Fin 24) (k : Handle → PostAccess) : List PostAccess :=
  (table[n]).elim [] (fun h => [k h])

/-- A plug-in is noted against an exchange in flight with the post (R66, R70). -/
def Bus.notePlugIn (b : Bus) (n : Fin 24) : Bus :=
  { b with exchange := b.exchange.map (fun x => if x.post = n then { x with plugInSince := true } else x) }

/-- A plug-in event given to the engine: taken at an in-service post in EMPTY (R65, R66). -/
def Bus.plugIn (b : Bus) (n : Fin 24) : Bus :=
  if b.posts[n].inService ∧ b.posts[n].state = .empty then (b.modify n Post.plugIn).notePlugIn n else b

/-- A plug-out event given to the engine: taken at an in-service post in OCCUPIED or BOUND; a BOUND post has one unbind
access presented (R67). -/
def Bus.plugOut (b : Bus) (table : Vector (Option Handle) 24) (n : Fin 24) : Bus :=
  if b.posts[n].inService ∧ b.posts[n].state = .bound then
    (b.modify n Post.plugOut).present (boundAccess table n (fun h => .unbind n h .unplug))
  else if b.posts[n].inService ∧ b.posts[n].state = .occupied then b.modify n Post.plugOut
  else b

/-- Service OUT of an in-service post (R61). -/
def Bus.serviceOut (b : Bus) (table : Vector (Option Handle) 24) (n : Fin 24) : Bus :=
  (b.modify n Post.serviceOut).present
    (if b.posts[n].state = .bound then boundAccess table n (fun h => .unbind n h .serviceOut) else [])

/-- Service IN of an OUT post, whose state follows the filtered plug level (R62). -/
def Bus.serviceIn (b : Bus) (n : Fin 24) (level : Level) : Bus :=
  if level = .high then (b.modify n Post.serviceIn).plugIn n else b.modify n Post.serviceIn

/-- Entry of the site mode into SHED (R5, R151): every recorded grant 0, and one access for each bound order in ascending
post number. -/
def Bus.enterShed (b : Bus) (table : Vector (Option Handle) 24) : Bus :=
  (b.mapPosts Post.enterShed).present (allPosts.flatMap (fun n => boundAccess table n (.zeroGrant n)))

/-- A vehicle change at a BOUND post (R93). -/
def Bus.vehicleChange (b : Bus) (table : Vector (Option Handle) 24) (n : Fin 24) : Bus :=
  (b.modify n (fun p => { p.setRecorded 0 with baseline := none })).present
    (boundAccess table n (fun h => .unbind n h .vehicleChange))

/-- The unbinding notice, and the attempts it triggers (R35, R84 events 3 to 5): at the post itself, at a post whose
vehicle number is the order's and whose condition is CONFLICT, and, on a return to PENDING, at every post reporting
the vehicle. -/
def Bus.unbound (b : Bus) (n : Fin 24) (vehicle : Nat) (pending : Bool) : Bus :=
  let b1 := b.modify n Post.unbound
  b1.trigger (fun q => q = n || (b1.posts[q].current.vehicle = vehicle && (pending || b1.posts[q].condition = .conflict)))

/-- Every OCCUPIED post that reports a vehicle number receives an attempt when an order of it becomes PENDING (R79). -/
def Bus.orderPending (b : Bus) (vehicle : Nat) : Bus := b.trigger (fun q => b.posts[q].current.vehicle = vehicle)

/-! ### The planner's part of a notice (R127) -/

/-- Marks the row of an order struck, when the round holds one. -/
def RowEntry.strike (h : Handle) (e : RowEntry) : RowEntry :=
  if e.row.handle = h then { e with struck := true } else e

/-- Removes an order from the ranking and strikes its row (R35, R127). -/
def Planner.remove (p : Planner) (h : Handle) : Planner :=
  { p with
    ranking := p.ranking.filter (fun x => x ≠ h)
    round := p.round.map (fun r => { r with rows := r.rows.map (RowEntry.strike h) }) }

/-- Sets replan pending (R119). -/
def Planner.setReplan (p : Planner) : Planner := { p with replan := true }

/-- The handles left of the ranking and the pairs of post and handle a snapshot reads, ranked ones first (R120). -/
def snapshotList (st : Store) (ranking : List Handle) : List (Fin 24 × Handle) :=
  ranking.filterMap (fun h => (allPosts.find? (fun n => st.table[n] = some h)).map (fun n => (n, h))) ++
    allPosts.filterMap
      (fun n => (st.table[n]).bind (fun h => if ranking.contains h then none else some (n, h)))

/-- The handles of the slots whose directory entries show PENDING, in ascending slot number (R122). -/
def sweepList (st : Store) : List Handle :=
  (allSlots.filter (fun n => (st.dir n).state = some .pending)).map st.slotHandle

/-- A round whose list of reads is used up enters SWEEP, and from an empty sweep list COMPUTE (R120, R122). -/
def Round.advance (st : Store) (r : Round) : Round :=
  match r.phase with
  | .snapshot [] => { r with phase := if (sweepList st).isEmpty then .compute else .sweep (sweepList st) }
  | .sweep [] => { r with phase := .compute }
  | _ => r

/-- A round starts (R117, R120): replan pending cleared, the timer restarted, now and the settings read, the round mark
set on every post, and the snapshot list taken. -/
def State.startRound (s : State) : State :=
  { s with
    planner := { s.planner with
      timer := 0, replan := false
      round := some (Round.advance s.store
        { phase := .snapshot (snapshotList s.store s.planner.ranking), now := s.clock.minute
          startLead := s.site.startLead, grace := s.site.grace, fallback := s.site.fallback, rows := [] }) }
    bus := s.bus.mapPosts (fun p => { p with roundMark := true }) }

/-- A round timer expiry (R116 to R118). -/
def State.roundTimerExpires (s : State) : State :=
  if s.planner.round.isSome then
    { s with planner := { s.planner with timer := 0 }, attention := s.attention.setRoundOverrun }
  else s.startRound

/-- A round starts when replan pending is set, or found set, while the round state is IDLE (R117). -/
def State.startDue (s : State) : State := if s.planner.round.isNone && s.planner.replan then s.startRound else s

/-! ### The arbiter (R37, R38) -/

/-- The access of a posted change (R169). -/
def Change.access : Change → LinkAccess
  | .amend f => .amend f
  | .withdraw h => .withdraw h
  | .release h => .free h

/-- The access LINK presents: that of the oldest posted change, else that of the request in progress (R167, R169). -/
def Link.presented (l : Link) : Option LinkAccess :=
  match l.posting with
  | c :: _ => some c.access
  | [] =>
    match l.inProgress with
    | some { stage := .access a, .. } => some a
    | _ => none

/-- The tests of a binding attempt when it is served (R86): the vehicle of the attempt, or none when one fails. -/
def bindVehicle (b : Bus) (st : Store) (n : Fin 24) : Option Nat :=
  if b.posts[n].qualifies ∧ st.table[n] = none then some b.posts[n].current.vehicle else none

/-- The access POSTS presents: the first of its list. -/
def presentedPosts (b : Bus) (st : Store) : Option Access :=
  match b.queue with
  | [] => none
  | .bind n :: _ => some (.bind n { vehicle := bindVehicle b st n, plugOut := false, serviceOut := false })
  | a :: _ => some (.posts a)

/-- The access PLAN presents: the next of its round (R37). -/
def Planner.presented (p : Planner) : Option PlanAccess :=
  match p.round with
  | some { phase := .snapshot ((n, h) :: _), .. } => some (.snapshot n h)
  | some { phase := .sweep (h :: _), .. } => some (.sweep h)
  | some { phase := .writeBack (n :: _), .. } => some (.writeBack n)
  | _ => none

/-- The access a requester presents. -/
def State.presented (s : State) : Requester → Option Access
  | .link => s.link.presented.map .link
  | .posts => presentedPosts s.bus s.store
  | .plan => s.planner.presented.map .plan

/-- The requester after another in the cyclic order LINK, POSTS, PLAN (R38). -/
def Requester.next : Requester → Requester
  | .link => .posts
  | .posts => .plan
  | .plan => .link

/-- What is left of a phase once its next access is granted. -/
def Phase.tail : Phase → Phase
  | .snapshot l => .snapshot l.tail
  | .sweep l => .sweep l.tail
  | .compute => .compute
  | .writeBack l => .writeBack l.tail

/-- The planner once its next access is granted. -/
def Planner.granted (p : Planner) : Planner := { p with round := p.round.map (fun r => { r with phase := r.phase.tail }) }

/-- The arbiter grants an access of a requester: it is in flight, and the pointer moves (R38). -/
def State.grant (s : State) (r : Requester) (a : Access) : State :=
  { s with
    arbiter := { pointer := r, inFlight := some a }
    bus := if r = .posts then { s.bus with queue := s.bus.queue.tail } else s.bus
    planner := if r = .plan then s.planner.granted else s.planner }

/-- The arbiter serves the first requester with an access presented, beginning with the one after the pointer, when the
store is free (R38). -/
def State.settle (s : State) : State :=
  if s.arbiter.inFlight.isSome then s
  else
    let r1 := s.arbiter.pointer.next
    let r2 := r1.next
    let r3 := r2.next
    match s.presented r1, s.presented r2, s.presented r3 with
    | some a, _, _ => s.grant r1 a
    | none, some a, _ => s.grant r2 a
    | none, none, some a => s.grant r3 a
    | none, none, none => s

/-- What follows every event at once: a round that is due starts (R117), and a free store serves the next access (R38;
log entry 24). -/
def State.finish (s : State) : State := s.startDue.settle

/-- The access in flight completes (R36). -/
def State.completed (s : State) : State := { s with arbiter := { s.arbiter with inFlight := none } }

/-- A plug-out is noted against a binding attempt in flight at the post (R90). -/
def Arbiter.notePlugOut (a : Arbiter) (n : Fin 24) : Arbiter :=
  match a.inFlight with
  | some (.bind p note) => if p = n then { a with inFlight := some (.bind p { note with plugOut := true }) } else a
  | _ => a

/-- A service OUT is noted against a binding attempt in flight at the post (R90). -/
def Arbiter.noteServiceOut (a : Arbiter) (n : Fin 24) : Arbiter :=
  match a.inFlight with
  | some (.bind p note) => if p = n then { a with inFlight := some (.bind p { note with serviceOut := true }) } else a
  | _ => a

/-! ### Notices of a store access (R35) -/

/-- The notices of a close or a return to PENDING: the planner's removal, and for a bound order the engine's part. -/
def State.noticeUnbound (s : State) (h : Handle) (vehicle : Nat) (post : Option (Fin 24)) (pending : Bool) : State :=
  { s with
    planner := if pending then (s.planner.remove h).setReplan else s.planner.remove h
    bus := post.elim s.bus (fun n => s.bus.unbound n vehicle pending) }

/-- Closes an order in the access under way (R17), whose record is `o`. -/
def State.closeOrder (s : State) (h : Handle) (o : Order) (outcome : OrderOutcome) : State :=
  State.noticeUnbound
    { s with store := s.store.close h o outcome s.clock.minute, classes := dropUser s.classes h.slot }
    h o.vehicle o.boundPost false

/-- The access under way has found the record of a handle damaged: a LIVE slot is closed by damage (R40), a CLOSED one
only marked (R41). -/
def State.damaged (s : State) (h : Handle) : State :=
  if (s.store.dir h.slot).occupancy = .live then
    State.noticeUnbound { s with store := s.store.damage h, classes := dropUser s.classes h.slot } h
      ((s.store.dir h.slot).vehicle.getD 0) (s.store.dir h.slot).boundPost false
  else { s with store := s.store.markDamaged h.slot }

/-! ### The site link's replies and requests (11) -/

/-- Sends the reply to the request in progress, which ends it (R165, R166). -/
def Link.answer (l : Link) (status : Status) (clamped : Bool) (payload : List Byte) : Link :=
  match l.inProgress with
  | some p =>
    { l with
      inProgress := none
      sent := l.sent ++ [{ code := p.request.code, tag := p.tag, status := status, clamped := clamped, payload := payload }] }
  | none => l

/-- Sends a reply to the request in progress. -/
def State.answer (s : State) (status : Status) (clamped : Bool) (payload : List Byte) : State :=
  { s with link := s.link.answer status clamped payload }

/-- Refuses the request in progress: the clamped indicator is clear and there is no payload (R22, R165). -/
def State.refuse (s : State) (status : Status) : State := s.answer status false []

/-- The first condition that fails gives its refusal (R8, R11, R12). -/
def firstRefusal : List (Bool × Status) → Option Status
  | [] => none
  | (fails, status) :: rest => if fails then some status else firstRefusal rest

/-- A change names the slot of one already waiting in a posting slot (R168). -/
def Link.sameSlot (l : Link) (c : Change) : Bool := l.posting.any (fun w => w.handle.slot = c.handle.slot)

/-- The port would post this request: a postable change whose slot no waiting change names (R168). -/
def Link.wouldPost (l : Link) : Request → Bool
  | .change c => l.postingEnabled && !l.sameSlot c
  | _ => false

/-- The port does not take this request now: a change it would post, with both posting slots full (R166). R166 speaks of a
change that the port would post, and also of any postable change. The model reads the first by the slot alone (R168): a
change naming the slot of a waiting one is taken and waits for drain, and one that validation would refuse stays in the
buffer. DESIGN CHOICE, log entry 38. -/
def Link.blocked (l : Link) (r : Request) : Bool := l.wouldPost r && Config.postingSlots ≤ l.posting.length

/-- The port takes a request as it comes (R166): none is in progress, no frame is ahead of it in the buffer, and it is no
change that waits for a posting slot (log entry 4). -/
def Link.takes (l : Link) (r : Request) : Bool := l.inProgress.isNone && l.buffer.isNone && !l.blocked r

/-- A request becomes the one in progress (R166). -/
def State.beginRequest (s : State) (r : Request) (tag : Byte) : State :=
  { s with link := { s.link with inProgress := some { request := r, tag := tag, stage := .taken } } }

/-- The port takes a request that is not posted: carried out at once, or, while posted changes are ahead of it, in progress
until they have drained (R166, R167). -/
def State.takeUnposted (s : State) (r : Request) (tag : Byte) (effect : State → State) : State :=
  if s.link.posting.isEmpty then effect (s.beginRequest r tag) else s.beginRequest r tag

/-- A request that is not posted comes to the port (R166, R167); one the port does not take changes nothing. -/
def State.carryOut (s : State) (r : Request) (tag : Byte) (effect : State → State) : State :=
  if s.link.takes r then s.takeUnposted r tag effect else s

/-- The request in progress presents a store access and replies at its completion (R167). -/
def State.presentLink (s : State) (a : LinkAccess) : State :=
  { s with link := { s.link with inProgress := s.link.inProgress.map (fun p => { p with stage := .access a }) } }

/-- A LINK access completes with a status: the request in progress is answered, or, for a posted change, its slot is
freed and a refusal drops it (R167, R169). -/
def State.linkDone (s : State) (status : Status) (clamped : Bool) (payload : List Byte) : State :=
  match s.link.posting with
  | c :: rest =>
    { s with
      link := { s.link with posting := rest }
      attention := if status = .done then s.attention else s.attention.drop c status }
  | [] => s.answer status clamped payload

/-! ### Site mode (09) -/

/-- The site mode changes (R150): MODE CHANGE and replan pending, and entry into SHED zeroes the grants (R151). -/
def State.changeMode (s : State) (m : SiteMode) (restore : Option Nat) : State :=
  if m = s.supply.mode then s
  else
    { s with
      supply := { s.supply with mode := m, restore := restore }
      attention := s.attention.setModeChange
      planner := s.planner.setReplan
      bus := if m = .shed then s.bus.enterShed s.store.table else s.bus }

/-- Shed is called (section 10.3). -/
def Supply.shedCalled (x : Supply) : Bool := x.shed.filtered = .high || x.forced = .shed

/-- Limit is called (section 10.3). -/
def Supply.limitCalled (x : Supply) : Bool := x.limit.filtered = .high || x.forced = .limited

/-- The mode a restore leads to (R148). -/
def Supply.restoredMode (x : Supply) : SiteMode := if x.limitCalled then .limited else .normal

/-- The move of the site mode when the calls change from those of `old` to those of `x` (R148): the next mode and the
restore timer. -/
def Supply.respond (x old : Supply) (restoreDelay : Nat) : SiteMode × Option Nat :=
  if !old.shedCalled && x.shedCalled then (.shed, none)
  else if old.shedCalled && !x.shedCalled && x.mode = .shed then
    if restoreDelay = 0 then (x.restoredMode, none) else (.restoring, some 0)
  else if !old.limitCalled && x.limitCalled && x.mode = .normal then (.limited, none)
  else if old.limitCalled && !x.limitCalled && x.mode = .limited then (.normal, none)
  else (x.mode, x.restore)

/-- The filtered lines or the forced mode have changed to those of `x`, and the calls are judged anew (R148). -/
def State.judgeCalls (s : State) (x : Supply) : State :=
  State.changeMode { s with supply := x } (x.respond s.supply s.site.restoreDelay).1
    (x.respond s.supply s.site.restoreDelay).2

/-- The restore timer expires (R148, R149). -/
def State.restoreExpires (s : State) : State :=
  if s.supply.mode = .restoring then s.changeMode s.supply.restoredMode none else s

/-! ### Line filters (R65, R146) -/

/-- A change of a line's level starts or stops its filter timer. -/
def LineFilter.change (f : LineFilter) (level : Level) : LineFilter :=
  if level = f.line then f else { f with line := level, timer := if level = f.filtered then none else some 0 }

/-- The filter timer has run for 2 s: the filtered level takes the line's level and the timer stops. -/
def LineFilter.expire (f : LineFilter) : LineFilter :=
  if f.timer.isSome then { f with filtered := f.line, timer := none } else f

/-- A filter at a reset: the filtered level low; a line that is high starts its timer at once. -/
def LineFilter.restart (f : LineFilter) : LineFilter :=
  { f with filtered := .low, timer := if f.line = .high then some 0 else none }

end Sys2Proof.Machine
end

