-- ==== Sys2Proof/Machine/Estimate.lean ====
section
/-! DEFINITION. The thermal estimate of a round row, stage by stage (06 section 7.3). -/

namespace Sys2Proof.Machine

/-- Stage 0: what a heater can do at a post (R105). -/
structure HeaterLimits where
  heater  : Heater
  pmaxEff : Nat
  pminEff : Nat
  deriving DecidableEq, Repr

/-- The effective heater maximum and minimum of a class at a post (R105). -/
def heaterLimits (c : ClassParams) (heater : Heater) (feedLimit : Nat) : HeaterLimits :=
  { heater := heater
    pmaxEff := floor100 (min c.pmax feedLimit)
    pminEff := min (ceil100 c.pmin) (floor100 (min c.pmax feedLimit)) }

/-- The half step of a STEPPED interface (R105). -/
def HeaterLimits.half (l : HeaterLimits) : Nat := floor100 (l.pmaxEff / 2)

/-- The lowest running level (R105). -/
def HeaterLimits.lowest (l : HeaterLimits) : Nat :=
  match l.heater with
  | .continuous => max l.pminEff 100
  | .stepped => l.half
  | .switched => l.pmaxEff

/-- A power is a deliverable level (R105). -/
def HeaterLimits.deliverable (l : HeaterLimits) (w : Nat) : Bool :=
  w = 0 ||
    match l.heater with
    | .continuous => w % 100 = 0 && l.lowest ≤ w && w ≤ l.pmaxEff
    | .stepped => w = l.half || w = l.pmaxEff
    | .switched => w = l.pmaxEff

/-- The highest deliverable level not above a power (R115). -/
def HeaterLimits.lower (l : HeaterLimits) (w : Nat) : Nat :=
  match l.heater with
  | .continuous =>
    if floor100 (min w l.pmaxEff) < l.lowest then 0 else floor100 (min w l.pmaxEff)
  | .stepped => if l.pmaxEff ≤ w then l.pmaxEff else if l.half ≤ w then l.half else 0
  | .switched => if l.pmaxEff ≤ w then l.pmaxEff else 0

/-- Stage 10: a raw request brought to a deliverable level (R113). -/
def HeaterLimits.request (l : HeaterLimits) (raw : Nat) : Nat :=
  if raw = 0 then 0
  else
    let q := min (max raw l.pminEff) l.pmaxEff
    match l.heater with
    | .continuous => max (ceil100 q) l.lowest
    | .stepped => if q ≤ l.half then l.half else l.pmaxEff
    | .switched => l.pmaxEff

/-- The heater limits of a row (R105, R121). -/
def Row.limits (r : Row) : HeaterLimits := heaterLimits r.params r.heater r.feedLimit

/-- Stage 1: the outside temperature used (R106). -/
def Row.outsideUsed (r : Row) (fallback : Int) : Int := r.report.outside.getD fallback

/-- The row's cabin reading when it is present and young enough to be used (R106). -/
def Row.cabinUsable (r : Row) : Option Int := if r.age < Config.ageMax then r.report.cabin else none

/-- Stage 1: the cabin temperature used (R106). -/
def Row.cabinUsed (r : Row) (fallback : Int) : Int := r.cabinUsable.getD (r.outsideUsed fallback)

/-- Stage 2: the lift energy in kJ (R107). -/
def Row.liftEnergy (r : Row) (fallback : Int) : Nat :=
  ceilDiv (r.params.c * (r.target - r.cabinUsed fallback).toNat) 10

/-- Stage 3: the loss power in W (R107). -/
def Row.lossPower (r : Row) (fallback : Int) : Nat :=
  ceilDiv (r.params.g * (r.target - r.outsideUsed fallback).toNat) 10

/-- Stage 4: the full heat in W (R108). -/
def Row.fullHeat (r : Row) : Nat := r.limits.pmaxEff * r.params.h / 16

/-- Stage 5: UNREACHABLE, a lift to make with a net heat of 0 or less (R108). -/
def Row.unreachable (r : Row) (fallback : Int) : Bool :=
  r.liftEnergy fallback ≠ 0 && r.fullHeat ≤ r.lossPower fallback

/-- Stage 5: the time to target in s (R108). -/
def Row.timeToTarget (r : Row) (fallback : Int) : Nat :=
  if r.liftEnergy fallback = 0 then 0
  else if r.fullHeat ≤ r.lossPower fallback then Config.timeToTargetMax
  else min Config.timeToTargetMax (ceilDiv (r.liftEnergy fallback * 1000) (r.fullHeat - r.lossPower fallback))

/-- Stage 6: the lead in minutes (R109). -/
def Row.lead (r : Row) (fallback : Int) : Nat := ceilDiv (r.timeToTarget fallback) 60 + r.params.m

/-- The tier offset (R109). -/
def Tier.offset : Tier → Int
  | .firstOut => -10
  | .regular => 0
  | .flexible => 10

/-- Stage 7: the effective slack in minutes (R109). -/
def Row.slack (r : Row) (now : Nat) (fallback : Int) : Int :=
  aheadMinutes now r.departure - r.lead fallback + r.tier.offset

/-- Stage 7: the latest start, a minute-of-week (R109). -/
def Row.latestStart (r : Row) (fallback : Int) : Nat :=
  (((r.departure : Int) - r.lead fallback) % Config.weekMinutes).toNat

/-- An earliest start places no limit: it is absent, reads as not ahead of now, or lies after the departure (R2,
R110). -/
def earliestAllows (now : Nat) (earliest : Option Nat) (departure : Nat) : Bool :=
  earliest.all (fun e => aheadMinutes now e ≤ 0 || liesAfter now e departure)

/-- Stage 8: the row is eligible to heat (R110). -/
def Row.eligible (r : Row) (now startLead : Nat) (fallback : Int) : Bool :=
  r.slack now fallback ≤ (startLead : Int) && earliestAllows now r.earliest r.departure

/-- Stage 9: the holding case (R111). -/
def Row.holding (r : Row) : Bool :=
  r.cabinUsable.any (fun t => r.target ≤ t || (r.state = .holding && r.target - 10 ≤ t))

/-- The hold power in W (R111). -/
def Row.holdPower (r : Row) (fallback : Int) : Nat := ceilDiv (r.lossPower fallback * 16) r.params.h

/-- The lift power over the minutes left before the cabin should be warm (R112). -/
def Row.liftPower (r : Row) (fallback : Int) (left : Nat) : Nat := ceilDiv (r.liftEnergy fallback * 1000) (left * 60)

/-- Stage 9: the raw request (R111, R112; log entry 14 for an eligible row with nothing to lift). -/
def Row.rawRequest (r : Row) (now startLead : Nat) (fallback : Int) : Nat :=
  if r.holding then r.holdPower fallback
  else if r.eligible now startLead fallback then
    if r.liftEnergy fallback = 0 then r.holdPower fallback
    else if aheadMinutes now r.departure - r.params.m ≤ 0 ∨ r.unreachable fallback then r.limits.pmaxEff
    else
      ceilDiv ((r.liftPower fallback (aheadMinutes now r.departure - r.params.m).toNat + r.lossPower fallback) * 16)
        r.params.h
  else 0

/-- The estimate of a row (R114). -/
def Row.estimate (r : Row) (now startLead : Nat) (fallback : Int) : Estimate :=
  { liftEnergy := r.liftEnergy fallback
    lossPower := r.lossPower fallback
    timeToTarget := r.timeToTarget fallback
    latestStart := r.latestStart fallback
    slack := r.slack now fallback
    request := r.limits.request (r.rawRequest now startLead fallback)
    unreachable := r.unreachable fallback }

end Sys2Proof.Machine
end

