-- ==== Sys2Proof/Machine/Allocation.lean ====
section
/-! DEFINITION. The allocator: the floor pass and the fill pass over the ranked rows (08). Its working values live
inside one COMPUTE step (R129). -/

namespace Sys2Proof.Machine

/-- What the planner hands over for one row (R130). -/
structure AllocRow where
  request      : Nat
  heater       : Heater
  lowest       : Nat
  half         : Nat
  pmaxEff      : Nat
  sent         : Option Nat
  eligible     : Bool
  holding      : Bool
  nonCandidate : Bool
  deriving DecidableEq, Repr

/-- What is left of headroom and ramp (R129). -/
structure Remainder where
  headroom : Nat
  ramp     : Nat
  deriving DecidableEq, Repr

/-- The sent grant as the ramp counts it: unknown counts as 0 (R132). -/
def AllocRow.sentForRamp (a : AllocRow) : Nat := a.sent.getD 0

/-- The ramp use of a grant (R133). -/
def rampUse (g sent : Nat) : Nat := g - sent

/-- The ramp cost of a step from `g` to `g'` (R133). -/
def rampCost (g g' sent : Nat) : Nat := rampUse g' sent - rampUse g sent

/-- A step fits when both of its costs are at or below what is left (R133). -/
def Remainder.fits (l : Remainder) (g g' sent : Nat) : Bool := g' - g ≤ l.headroom && rampCost g g' sent ≤ l.ramp

/-- What is left after a step (R133). -/
def Remainder.pay (l : Remainder) (g g' sent : Nat) : Remainder :=
  { headroom := l.headroom - (g' - g), ramp := l.ramp - rampCost g g' sent }

/-- The floor level of a candidate (R134). -/
def AllocRow.floor (a : AllocRow) : Nat :=
  match a.heater with
  | .continuous => a.lowest
  | .stepped => a.half
  | .switched => a.pmaxEff

/-- The tentative grant a row takes in the floor pass (R131, R135). -/
def AllocRow.floorGrant (a : AllocRow) (l : Remainder) : Nat :=
  if a.nonCandidate then 0 else if l.fits 0 a.floor a.sentForRamp then a.floor else 0

/-- The floor pass: the tentative grants in rank order, and what is left (R135). -/
def floorPass : List AllocRow → Remainder → List (AllocRow × Nat) × Remainder
  | [], l => ([], l)
  | a :: rest, l =>
    let g := a.floorGrant l
    let r := floorPass rest (l.pay 0 g a.sentForRamp)
    ((a, g) :: r.1, r.2)

/-- The level to which the fill pass raises a candidate holding `g` (R136, R137). A candidate left at 0, and one that
holds its request, stay. -/
def AllocRow.fillGrant (a : AllocRow) (g : Nat) (l : Remainder) : Nat :=
  if a.nonCandidate ∨ g = 0 then g
  else
    match a.heater with
    | .continuous =>
      max g (floor100 (min a.request (min (g + l.headroom) (max g a.sentForRamp + l.ramp))))
    | .stepped =>
      if g = a.half ∧ a.request = a.pmaxEff ∧ l.fits g a.pmaxEff a.sentForRamp then a.pmaxEff else g
    | .switched => g

/-- The fill pass: the final grants in rank order, and what is left (R136). -/
def fillPass : List (AllocRow × Nat) → Remainder → List (AllocRow × Nat) × Remainder
  | [], l => ([], l)
  | (a, g) :: rest, l =>
    let g' := a.fillGrant g l
    let r := fillPass rest (l.pay g g' a.sentForRamp)
    ((a, g') :: r.1, r.2)

/-- One allocation (R129, R139): the final grants in rank order, and what is left of headroom and ramp. -/
def allocate (headroom ramp : Nat) (rows : List AllocRow) : List (AllocRow × Nat) × Remainder :=
  let f := floorPass rows { headroom := headroom, ramp := ramp }
  fillPass f.1 f.2

/-- The SHORT indicator the allocator returns (R141). -/
def AllocRow.short (a : AllocRow) (grant : Nat) : Bool := (a.eligible || a.holding) && grant < a.request

end Sys2Proof.Machine
end

