-- ==== Sys2Proof/Machine/Headroom.lean ====
section
/-! DEFINITION. The meter reading, the sent total, the headroom and the ramp allowance (09 sections 10.1 and 10.4). -/

namespace Sys2Proof.Machine

/-- The measured power of a reading: pulses of k Wh over t seconds, a t of 0 taken as 1 (R145). -/
def measuredPower (count k t : Nat) : Nat := count * k * 3600 / (if t = 0 then 1 else t)

/-- What a post contributes to the sent total (R152, log entry 15). -/
def sentContribution (p : Post) (row : Option Row) : Nat :=
  match p.sent with
  | some w => w
  | none =>
    match row with
    | some r => r.limits.pmaxEff
    | none => if p.inService then p.feedLimit else 0

/-- The sent total (R152). -/
def sentTotal (b : Bus) (rows : List RowEntry) : Nat :=
  (allPosts.map (fun n => sentContribution b.posts[n] ((rows.find? (fun e => e.row.post = n)).map RowEntry.row))).sum

/-- The mode limit in W (R153). -/
def modeLimit (mode : SiteMode) (x : SiteSettings) : Nat :=
  match mode with
  | .normal => x.siteLimit * 1000
  | .limited | .restoring => min x.limitedLevel x.siteLimit * 1000
  | .shed => 0

/-- The conditioning ceiling in W, lowered in autonomy (R153, R176). -/
def conditioningCeiling (autonomy : Bool) (x : SiteSettings) : Nat :=
  (if autonomy then min x.ceiling x.autoCeiling else x.ceiling) * 1000

/-- The headroom (R153): the mode limit less the other load, held under the ceiling; with the overrange indicator set,
the lesser of the ceiling and the sent total, and 0 in SHED. -/
def headroom (mode : SiteMode) (autonomy overrange : Bool) (x : SiteSettings) (power sent : Nat) : Nat :=
  if overrange then if mode = .shed then 0 else min (conditioningCeiling autonomy x) sent
  else min (modeLimit mode x - (power - sent)) (conditioningCeiling autonomy x)

/-- The ramp allowance in W (R130, R153). -/
def rampAllowance (x : SiteSettings) : Nat := x.rampLimit * 1000

/-- The reading's measured power as things stand (R145). -/
def State.powerNow (s : State) : Nat :=
  measuredPower s.supply.counter s.site.meterConstant (s.supply.interval / Config.msPerSecond)

/-- The headroom of a round as things stand (R153). -/
def State.headroomNow (s : State) (rows : List RowEntry) : Nat :=
  headroom s.supply.mode s.link.autonomy s.supply.overrange s.site s.powerNow (sentTotal s.bus rows)

/-- The supply monitor after a headroom request (R145, R152, R153). -/
def State.supplyRead (s : State) (rows : List RowEntry) : Supply :=
  { s.supply with
    counter := 0, overrange := false, interval := 0, lastPower := s.powerNow, lastSent := sentTotal s.bus rows
    lastHeadroom := s.headroomNow rows }

/-- A METER transition (R144): on the selected edge the counter advances, or, held at 4095, the overrange indicator and
METER OVERRANGE are set. -/
def State.meterTransition (s : State) (edge : Edge) : State :=
  if edge = s.site.meterEdge then
    if s.supply.counter < Config.meterMax then
      { s with supply := { s.supply with counter := s.supply.counter + 1 } }
    else { s with supply := { s.supply with overrange := true }, attention := s.attention.setMeterOverrange }
  else s

end Sys2Proof.Machine
end

