-- ==== Sys2Proof/Machine/Orders.lean ====
section
/-! DEFINITION. The order requests PLACE, AMEND, WITHDRAW and RELEASE at the site link port (01, 11 section 12.3). -/

namespace Sys2Proof.Machine

/-! ### PLACE -/

/-- A class number names an undefined class. -/
def State.classUndefined (s : State) (c : Nat) : Bool := ((classOf? c).bind (fun n => s.classes[n].params)).isNone

/-- Checks 1 to 4 of PLACE (R8), made at the port and again at the access (R54). -/
def State.placeChecks (s : State) (f : PlaceFields) : List (Bool × Status) :=
  [(!s.clock.isSet, .noClock),
   (!vehicleOk f.vehicle || (tierOf? f.tier).isNone || !minuteOk f.departure || (classOf? f.cls).isNone ||
      !f.earliest?.all minuteOk, .badField),
   (isBehind s.clock.minute f.departure, .past),
   (s.classUndefined f.cls, .noClass)]

/-- PLACE at the port: refused by the checks that need no store access, or its create access presented (R8). -/
def State.placeRequest (s : State) (f : PlaceFields) : State :=
  match firstRefusal (s.placeChecks f) with
  | some status => s.refuse status
  | none => s.presentLink (.create f)

/-- PLACE (R8). -/
def execPlace (tag : Byte) (f : PlaceFields) (s : State) : Host.Outcome State Fault Refusal :=
  .next (State.finish (s.carryOut (.place f) tag (fun s => s.placeRequest f)))

/-! ### AMEND's checks, shared by the port and the access -/

/-- Check 5 of AMEND (R12, R180): a named value outside its set, or both the set and the clear bit of one field. -/
def AmendFields.badField (f : AmendFields) : Bool :=
  !f.vehicle?.all vehicleOk || f.tier?.any (fun t => (tierOf? t).isNone) || !f.departure?.all minuteOk ||
    f.cls?.any (fun c => (classOf? c).isNone) || !f.setEarliest?.all minuteOk ||
    (f.setEarliest?.isSome && f.clearsEarliest) || (f.setHold?.isSome && f.clearsHold)

/-- Checks 3 and 4 of AMEND (R11): a class change in HEATING or HOLDING, a vehicle change of a bound order. -/
def AmendFields.locked (f : AmendFields) (st : OrderState) : Bool :=
  (f.cls?.isSome && (st = .heating || st = .holding)) ||
    (f.vehicle?.isSome && (st = .waiting || st = .heating || st = .holding || st = .stalled))

/-- The field checks of R12 that need no record. -/
def State.amendFieldChecks (s : State) (f : AmendFields) : List (Bool × Status) :=
  [(AmendFields.badField f, .badField),
   (f.departure?.any (isBehind s.clock.minute), .past),
   (f.cls?.any s.classUndefined, .noClass)]

/-- The directory's state of the slot a handle names. -/
def Store.rawState (st : Store) (r : RawHandle) : OrderState :=
  r.handle?.elim .closed (fun h => (st.dir h.slot).state.getD .closed)

/-- The checks of AMEND against the directory (R11, R29). -/
def State.amendDirectoryChecks (s : State) (f : AmendFields) : List (Bool × Status) :=
  [(s.store.rawVerdict f.handle = .unknown, .unknownHandle),
   (s.store.rawVerdict f.handle = .closed, .closed),
   (AmendFields.locked f (s.store.rawState f.handle), .locked)]

/-- The clamps of an AMEND that show in its own values (R168): a named target, a named hold extension, or a named
earliest start after a departure named in the same request. -/
def State.amendClampsSeen (s : State) (f : AmendFields) : Bool :=
  f.target?.any (fun t => t < 100 || 280 < t) || f.setHold?.any (fun h => 60 < h) ||
    (match f.setEarliest?, f.departure? with
      | some e, some d => clampsEarliest s.clock.minute e d
      | _, _ => false)

/-! ### Posting (R168) -/

/-- The checks the port makes of a change it would post (R168). -/
def State.changeChecks (s : State) : Change → List (Bool × Status)
  | .amend f => s.amendDirectoryChecks f ++ s.amendFieldChecks f
  | .withdraw h => [(s.store.rawVerdict h = .unknown, .unknownHandle), (s.store.rawVerdict h = .closed, .closed)]
  | .release h => [(s.store.rawVerdict h = .unknown, .unknownHandle), (s.store.rawVerdict h = .live, .notClosed)]

/-- The checks the port makes of a change it does not post (R29). -/
def State.directoryChecks (s : State) : Change → List (Bool × Status)
  | .amend f => s.amendDirectoryChecks f
  | c => s.changeChecks c

/-- The clamped indicator of a POSTED reply (R22, R168). -/
def State.postedClamped (s : State) : Change → Bool
  | .amend f => s.amendClampsSeen f
  | _ => false

/-- A change is posted: it joins the queue and is answered POSTED with its handle (R168). -/
def State.postChange (s : State) (c : Change) : State :=
  let t := s.answer .posted (s.postedClamped c) c.handle.bytes
  { t with link := { t.link with posting := t.link.posting ++ [c] } }

/-- A change the port posts (R168): refused at once, or posted. -/
def State.postOrRefuse (s : State) (c : Change) : State :=
  match firstRefusal (s.changeChecks c) with
  | some status => s.refuse status
  | none => s.postChange c

/-- A change the port does not post (R167, R168): refused from the directory, or its access presented. -/
def State.changeUnposted (s : State) (c : Change) : State :=
  match firstRefusal (s.directoryChecks c) with
  | some status => s.refuse status
  | none => s.presentLink c.access

/-- A change comes to the port (R168): one the port would post is posted or refused at once, and is in progress for no
time (R166). One that is not postable, or names the slot of a waiting change, is carried out once the changes ahead of it
have drained. -/
def State.changeRequest (s : State) (c : Change) (tag : Byte) : State :=
  if s.link.takes (.change c) then
    if s.link.wouldPost (.change c) then (s.beginRequest (.change c) tag).postOrRefuse c
    else s.takeUnposted (.change c) tag (fun s => s.changeUnposted c)
  else s

/-- AMEND (R11, R168). -/
def execAmend (tag : Byte) (f : AmendFields) (s : State) : Host.Outcome State Fault Refusal :=
  .next (State.finish (s.changeRequest (.amend f) tag))

/-- WITHDRAW (R14, R168). -/
def execWithdraw (tag : Byte) (h : RawHandle) (s : State) : Host.Outcome State Fault Refusal :=
  .next (State.finish (s.changeRequest (.withdraw h) tag))

/-- RELEASE (R16, R168). -/
def execRelease (tag : Byte) (h : RawHandle) (s : State) : Host.Outcome State Fault Refusal :=
  .next (State.finish (s.changeRequest (.release h) tag))

end Sys2Proof.Machine
end

