-- ==== Sys2Proof/Machine/Reads.lean ====
section
/-! DEFINITION. The requests that read orders: LOOKUP, FIND and the walks (11 section 12.4). -/

namespace Sys2Proof.Machine

/-- LOOKUP at the port: refused from the directory, or its read access presented (R170). -/
def State.lookupRequest (s : State) (r : RawHandle) : State :=
  match r.handle? with
  | none => s.refuse .unknownHandle
  | some h => if s.store.verdict h = .unknown then s.refuse .unknownHandle else s.presentLink (.read h .done)

/-- LOOKUP (R170). -/
def execLookup (tag : Byte) (h : RawHandle) (s : State) : Host.Outcome State Fault Refusal :=
  .next (State.finish (s.carryOut (.lookup h) tag (fun s => s.lookupRequest h)))

/-- FIND at the port (R33, R170). -/
def State.findRequest (s : State) (v : Nat) : State :=
  if vehicleOk v then s.presentLink (.index v) else s.refuse .badField

/-- FIND (R33, R170). -/
def execFind (tag : Byte) (v : Nat) (s : State) : Host.Outcome State Fault Refusal :=
  .next (State.finish (s.carryOut (.find v) tag (fun s => s.findRequest v)))

/-- Sets the walk cursor. -/
def State.setWalk (s : State) (w : Walk) : State := { s with link := { s.link with walk := w } }

/-- The lowest-numbered occupied slot that passes a test, LIVE or CLOSED, DAMAGED or not (R171). -/
def Store.nextOccupied (st : Store) (above : Fin 64 → Bool) : Option (Fin 64) :=
  allSlots.find? (fun n => above n && (st.dir n).occupancy ≠ .free)

/-- A walk has no further record: END, and the cursor is inactive (R171). -/
def State.endWalk (s : State) (status : Status) : State := (s.setWalk .inactive).answer status false []

/-- One step of a SLOT walk (R171). -/
def State.slotStep (s : State) (above : Fin 64 → Bool) : State :=
  match s.store.nextOccupied above with
  | some n => (s.setWalk (.slot n)).presentLink (.read (s.store.slotHandle n) .done)
  | none => s.endWalk .endOfWalk

/-- One step of a RANK walk over the handles returned so far (R172): the first handle of the ranking not returned. With
none left the reply is `ended`. -/
def State.rankStep (s : State) (returned : List Handle) (status ended : Status) : State :=
  match s.planner.ranking.find? (fun h => !returned.contains h) with
  | some h => (s.setWalk (.rank (returned ++ [h]) false)).presentLink (.read h status)
  | none => s.endWalk ended

/-- WALK START (R171): any active walk is discarded and a new one begins. -/
def State.walkStartRequest (s : State) (form : Nat) : State :=
  match form with
  | 0 => s.slotStep (fun _ => true)
  | 1 => s.rankStep [] .done .endOfWalk
  | _ => s.refuse .badField

/-- WALK_START (R171, R180). -/
def execWalkStart (tag : Byte) (form : Nat) (s : State) : Host.Outcome State Fault Refusal :=
  .next (State.finish (s.carryOut (.walkStart form) tag (fun s => s.walkStartRequest form)))

/-- WALK NEXT (R171, R172): BAD REQUEST without an active walk; a RANK walk whose ranking was replaced begins again at
the head of the new one. -/
def State.walkNextRequest (s : State) : State :=
  match s.link.walk with
  | .inactive => s.refuse .badRequest
  | .slot last => s.slotStep (fun n => last < n)
  | .rank _ true => s.rankStep [] .restarted .restarted
  | .rank returned false => s.rankStep returned .done .endOfWalk

/-- WALK_NEXT (R171, R172). -/
def execWalkNext (tag : Byte) (s : State) : Host.Outcome State Fault Refusal :=
  .next (State.finish (s.carryOut .walkNext tag (fun s => s.walkNextRequest)))

end Sys2Proof.Machine
end

