-- ==== Sys2Proof/Machine/Settings.lean ====
section
/-! DEFINITION. The requests on settings and status: SET_SITE, READ_SITE, SET_LINK, SET_POST, READ_POST, SET_CLASS,
CLEAR_CLASS, READ_CLASS, SET_TIME, READ_TIME, SET_MODE, REPLAN, READ_ATTENTION, CLEAR_ATTENTION and SET_MASKS. -/

namespace Sys2Proof.Machine

/-! ### SET SITE and READ SITE (R173, R174) -/

/-- The settings SET SITE stores, each brought into its range (R55, R116, R154, R173). -/
def siteClamped (f : SiteFields) (edge : Edge) : SiteSettings :=
  { siteLimit := clampNat 10 2000 f.siteLimit
    limitedLevel := clampNat 0 2000 f.limitedLevel
    ceiling := clampNat 0 500 f.ceiling
    autoCeiling := clampNat 0 500 f.autoCeiling
    rampLimit := clampNat 1 500 f.rampLimit
    meterConstant := clampNat 1 100 f.meterConstant
    meterEdge := edge
    restoreDelay := clampNat 0 900 f.restoreDelay
    roundPeriod := clampNat 10 120 f.roundPeriod
    startLead := clampNat 0 60 f.startLead
    grace := clampNat 0 60 f.grace
    departWindow := clampNat 0 120 f.departWindow
    horizon := clampNat 60 8640 f.horizon
    fallback := clampInt (-500) 600 f.fallback }

/-- The settings SET SITE gives, as given. -/
def siteGiven (f : SiteFields) (edge : Edge) : SiteSettings :=
  { siteLimit := f.siteLimit, limitedLevel := f.limitedLevel, ceiling := f.ceiling, autoCeiling := f.autoCeiling
    rampLimit := f.rampLimit, meterConstant := f.meterConstant, meterEdge := edge, restoreDelay := f.restoreDelay
    roundPeriod := f.roundPeriod, startLead := f.startLead, grace := f.grace, departWindow := f.departWindow
    horizon := f.horizon, fallback := f.fallback }

/-- A new restore delay is at or below the restore timer's running count (R149). -/
def State.restoreDue (s : State) (x : SiteSettings) : Bool :=
  x.restoreDelay ≠ s.site.restoreDelay && s.supply.restore.any (fun c => x.restoreDelay ≤ c / Config.msPerSecond)

/-- A new round period is at or below the round timer's running count (R116). -/
def State.roundDue (s : State) (x : SiteSettings) : Bool :=
  x.roundPeriod ≠ s.site.roundPeriod && x.roundPeriod ≤ s.planner.timer / Config.msPerSecond

/-- The settings change start lead or grace (R57). -/
def State.windowsChange (s : State) (x : SiteSettings) : Bool :=
  x.startLead ≠ s.site.startLead || x.grace ≠ s.site.grace

/-- A restore timer that is due expires (R149). -/
def State.restoreIf (s : State) (due : Bool) : State := if due then s.restoreExpires else s

/-- A round timer that is due expires (R116 to R118). -/
def State.roundIf (s : State) (due : Bool) : State := if due then s.roundTimerExpires else s

/-- A changed start lead or grace sets replan pending (R57). -/
def State.replanIf (s : State) (changed : Bool) : State :=
  if changed then { s with planner := s.planner.setReplan } else s

/-- The settings are stored and take effect in the order of the table of R173 (log entry 16): a restore timer that is due
expires (R149) and starts the round it makes due, a round timer that is due expires, as an overrun when a round is in
flight (R116 to R118), and a changed start lead or grace sets replan pending (R57). -/
def State.storeSite (s : State) (x : SiteSettings) : State :=
  ((State.restoreIf { s with site := x } (s.restoreDue x)).startDue.roundIf (s.roundDue x)).replanIf (s.windowsChange x)

/-- SET SITE (R173). -/
def State.setSiteRequest (s : State) (f : SiteFields) : State :=
  match edgeOf? f.meterEdge with
  | none => s.refuse .badField
  | some edge => (s.answer .done (siteClamped f edge ≠ siteGiven f edge) []).storeSite (siteClamped f edge)

/-- SET_SITE (R173). -/
def execSetSite (tag : Byte) (f : SiteFields) (s : State) : Host.Outcome State Fault Refusal :=
  .next (State.finish (s.carryOut (.setSite f) tag (fun s => s.setSiteRequest f)))

/-- READ SITE (R174). -/
def State.readSiteRequest (s : State) : State := s.answer .done false s.siteImage

/-- READ_SITE (R174). -/
def execReadSite (tag : Byte) (s : State) : Host.Outcome State Fault Refusal :=
  .next (State.finish (s.carryOut .readSite tag (fun s => s.readSiteRequest)))

/-! ### SET LINK (R175) -/

/-- The supervision time SET LINK stores. -/
def supervisionStored (t : Nat) : Nat := if t = 0 then 0 else clampNat 10 600 t

/-- SET LINK: a changed supervision time restarts or stops the timer (R175). The time is judged by the value it is stored
as. DESIGN CHOICE, log entry 37. -/
def State.setLinkRequest (s : State) (posting time : Nat) : State :=
  if 1 < posting then s.refuse .badField
  else
    let t := supervisionStored time
    let s1 := s.answer .done (t ≠ time) []
    { s1 with
      link := { s1.link with
        postingEnabled := posting = 1, supervisionTime := t
        supervision :=
          if t = s.link.supervisionTime then s.link.supervision else if t = 0 then none else some 0 } }

/-- SET_LINK (R175). -/
def execSetLink (tag : Byte) (posting time : Nat) (s : State) : Host.Outcome State Fault Refusal :=
  .next (State.finish (s.carryOut (.setLink posting time) tag (fun s => s.setLinkRequest posting time)))

/-! ### SET POST and READ POST (R60 to R63) -/

/-- The feed limit SET POST stores (R60). -/
def feedStored (w : Nat) : Nat := floor100 (clampNat 1000 10000 w)

/-- A named service, heater interface or poll mode is outside its set (R60). -/
def SetPostFields.badField (f : SetPostFields) : Bool :=
  f.service?.any (fun v => (serviceOf? v).isNone) || f.heater?.any (fun v => (heaterOf? v).isNone) ||
    f.pollMode?.any (fun v => (pollModeOf? v).isNone)

/-- SET POST would change the heater interface or the feed limit of a post (R60). A named feed limit is judged by the value
it is stored as, so that one clamped or rounded to the limit held is no change, of which R60 does not speak. DESIGN CHOICE,
log entry 37. -/
def SetPostFields.changesFeed (f : SetPostFields) (p : Post) : Bool :=
  f.heater?.any (fun v => heaterOf? v ≠ some p.heater) || f.feedLimit?.any (fun w => feedStored w ≠ p.feedLimit)

/-- The settings of a post after SET POST, less its service (R60). -/
def Post.configure (p : Post) (f : SetPostFields) : Post :=
  { p with
    heater := (f.heater?.bind heaterOf?).getD p.heater
    feedLimit := (f.feedLimit?.map feedStored).getD p.feedLimit
    pollMode := (f.pollMode?.bind pollModeOf?).getD p.pollMode }

/-- A change of service (R61, R62): at IN a high filtered level is a plug-in, with its flag (R66). -/
def State.setService (s : State) (n : Fin 24) (service : Option Bool) : State :=
  match service with
  | some false =>
    if s.bus.posts[n].inService then
      { s with bus := s.bus.serviceOut s.store.table n, arbiter := s.arbiter.noteServiceOut n }
    else s
  | some true =>
    if s.bus.posts[n].inService then s
    else
      { s with
        bus := s.bus.serviceIn n s.plug[n].filtered
        attention := if s.plug[n].filtered = .high then s.attention.setPluggedIn n else s.attention }
  | none => s

/-- SET POST (R60): BAD FIELD, then BUSY, then the settings and the change of service. R60 gives no order between BAD
FIELD and BUSY. DESIGN CHOICE, log entry 31. -/
def State.setPostRequest (s : State) (f : SetPostFields) : State :=
  match postOf? f.post with
  | none => s.refuse .badField
  | some n =>
    if SetPostFields.badField f then s.refuse .badField
    else if SetPostFields.changesFeed f s.bus.posts[n] ∧
        (s.bus.posts[n].state = .occupied ∨ s.bus.posts[n].state = .bound) then s.refuse .busy
    else
      let s1 := s.answer .done (f.feedLimit?.any (fun w => feedStored w ≠ w)) []
      State.setService { s1 with bus := s1.bus.modify n (fun p => p.configure f) } n (f.service?.bind serviceOf?)

/-- SET_POST (R60, R61, R62). -/
def execSetPost (tag : Byte) (f : SetPostFields) (s : State) : Host.Outcome State Fault Refusal :=
  .next (State.finish (s.carryOut (.setPost f) tag (fun s => s.setPostRequest f)))

/-- READ POST (R63). -/
def State.readPostRequest (s : State) (post : Nat) : State :=
  match postOf? post with
  | none => s.refuse .badField
  | some n => s.answer .done false (s.bus.posts[n].image n s.store.table[n])

/-- READ_POST (R63). -/
def execReadPost (tag : Byte) (post : Nat) (s : State) : Host.Outcome State Fault Refusal :=
  .next (State.finish (s.carryOut (.readPost post) tag (fun s => s.readPostRequest post)))

/-! ### SET CLASS, CLEAR CLASS and READ CLASS (R98 to R102) -/

/-- The parameters SET CLASS stores (R98). -/
def classClamped (f : SetClassFields) : ClassParams :=
  let pmax := floor100 (clampNat 500 10000 f.pmax)
  { c := clampNat 10 200 f.c, g := clampNat 5 200 f.g, pmax := pmax, pmin := min f.pmin pmax
    h := clampNat 16 64 f.h, m := min 30 f.m }

/-- The parameters SET CLASS gives, as given. -/
def classGiven (f : SetClassFields) : ClassParams :=
  { c := f.c, g := f.g, pmax := f.pmax, pmin := f.pmin, h := f.h, m := f.m }

/-- A slot of the class's user set holds an order in HEATING or HOLDING by its directory entry (R100). -/
def State.classHeating (s : State) (c : Fin 16) : Bool :=
  s.classes[c].users.any (fun n => (s.store.dir n).state = some .heating || (s.store.dir n).state = some .holding)

/-- SET CLASS would change the stored Pmax or Pmin of a class (R100). -/
def State.changesHeater (s : State) (c : Fin 16) (x : ClassParams) : Bool :=
  s.classes[c].params.any (fun p => p.pmax ≠ x.pmax || p.pmin ≠ x.pmin)

/-- The class table applies or refuses a SET CLASS (R98, R100). -/
def State.applyClass (s : State) (c : Fin 16) (f : SetClassFields) : State :=
  if s.changesHeater c (classClamped f) && s.classHeating c then s.refuse .inUse
  else
    let s1 := s.answer .done (classClamped f ≠ classGiven f) []
    { s1 with
      classes := s1.classes.set c { s1.classes[c] with params := some (classClamped f) }
      planner := s1.planner.setReplan }

/-- SET CLASS (R98, R99): refused, held while a round is in flight, or applied at once. -/
def State.setClassRequest (s : State) (f : SetClassFields) : State :=
  match classOf? f.cls with
  | none => s.refuse .badField
  | some c =>
    if s.planner.round.isSome then
      { s with link := { s.link with inProgress := s.link.inProgress.map (fun p => { p with stage := .held }) } }
    else s.applyClass c f

/-- SET_CLASS (R98, R99, R100). -/
def execSetClass (tag : Byte) (f : SetClassFields) (s : State) : Host.Outcome State Fault Refusal :=
  .next (State.finish (s.carryOut (.setClass f) tag (fun s => s.setClassRequest f)))

/-- A held SET CLASS is handed to the class table at the release (R99, R126). -/
def State.applyHeld (s : State) : State :=
  match s.link.inProgress with
  | some { request := .setClass f, stage := .held, .. } =>
    match classOf? f.cls with
    | some c => s.applyClass c f
    | none => s.refuse .badField
  | _ => s

/-- CLEAR CLASS (R101). -/
def State.clearClassRequest (s : State) (cls : Nat) : State :=
  match classOf? cls with
  | none => s.refuse .badField
  | some c =>
    if s.classes[c].users.isEmpty then
      let s1 := s.answer .done false []
      { s1 with classes := s1.classes.set c { s1.classes[c] with params := none } }
    else s.refuse .inUse

/-- CLEAR_CLASS (R101). -/
def execClearClass (tag : Byte) (cls : Nat) (s : State) : Host.Outcome State Fault Refusal :=
  .next (State.finish (s.carryOut (.clearClass cls) tag (fun s => s.clearClassRequest cls)))

/-- READ CLASS (R102). -/
def State.readClassRequest (s : State) (cls : Nat) : State :=
  match classOf? cls with
  | none => s.refuse .badField
  | some c => s.answer .done false (s.classes[c].image c)

/-- READ_CLASS (R102). -/
def execReadClass (tag : Byte) (cls : Nat) (s : State) : Host.Outcome State Fault Refusal :=
  .next (State.finish (s.carryOut (.readClass cls) tag (fun s => s.readClassRequest cls)))

/-! ### SET TIME and READ TIME (R48 to R51) -/

/-- SET TIME (R48). -/
def State.setTimeRequest (s : State) (minute second : Nat) : State :=
  if minuteOk minute && second ≤ 59 then
    let s1 := s.answer .done false []
    { s1 with
      clock := { prescaler := 0, second := second, minute := minute, isSet := true }
      planner := s1.planner.setReplan }
  else s.refuse .badField

/-- SET_TIME (R48). -/
def execSetTime (tag : Byte) (minute second : Nat) (s : State) : Host.Outcome State Fault Refusal :=
  .next (State.finish (s.carryOut (.setTime minute second) tag (fun s => s.setTimeRequest minute second)))

/-- READ TIME (R50). -/
def State.readTimeRequest (s : State) : State := s.answer .done false s.clock.image

/-- READ_TIME (R50). -/
def execReadTime (tag : Byte) (s : State) : Host.Outcome State Fault Refusal :=
  .next (State.finish (s.carryOut .readTime tag (fun s => s.readTimeRequest)))

/-! ### SET MODE and REPLAN (R119, R147) -/

/-- SET MODE (R147): the forced mode is stored and the site mode responds. -/
def State.setModeRequest (s : State) (mode : Nat) : State :=
  match forcedOf? mode with
  | none => s.refuse .badField
  | some m => (s.answer .done false []).judgeCalls { s.supply with forced := m }

/-- SET_MODE (R147, R148). -/
def execSetMode (tag : Byte) (mode : Nat) (s : State) : Host.Outcome State Fault Refusal :=
  .next (State.finish (s.carryOut (.setMode mode) tag (fun s => s.setModeRequest mode)))

/-- REPLAN (R119): replan pending is set, and `started` says whether a round starts at once. -/
def State.replanRequest (s : State) : State :=
  let s1 := s.answer .done false [yesNo s.planner.round.isNone]
  { s1 with planner := s1.planner.setReplan }

/-- REPLAN (R119). -/
def execReplan (tag : Byte) (s : State) : Host.Outcome State Fault Refusal :=
  .next (State.finish (s.carryOut .replan tag (fun s => s.replanRequest)))

/-! ### READ ATTENTION, CLEAR ATTENTION and SET MASKS (R160 to R162) -/

/-- READ ATTENTION, unnamed or named (R160). -/
def State.readAttentionRequest (s : State) (source : Option Nat) : State :=
  match source with
  | none => s.answer .done false (s.attentionImage s.waitingSources.head?)
  | some k =>
    match sourceOf? k with
    | none => s.refuse .badField
    | some n => s.answer .done false (s.attentionImage (some n))

/-- READ_ATTENTION (R160). -/
def execReadAttention (tag : Byte) (source : Option Nat) (s : State) : Host.Outcome State Fault Refusal :=
  .next (State.finish (s.carryOut (.readAttention source) tag (fun s => s.readAttentionRequest source)))

/-- CLEAR ATTENTION (R161). -/
def State.clearAttentionRequest (s : State) (source : Nat) (set : Byte) : State :=
  match sourceOf? source with
  | none => s.refuse .badField
  | some n =>
    if flagSetOk n set then
      let s1 := { s with attention := s.attention.clear n set }
      s1.answer .done false [s1.flags n]
    else s.refuse .badField

/-- CLEAR_ATTENTION (R161). -/
def execClearAttention (tag : Byte) (source : Nat) (flags : Byte) (s : State) : Host.Outcome State Fault Refusal :=
  .next (State.finish (s.carryOut (.clearAttention source flags) tag (fun s => s.clearAttentionRequest source flags)))

/-- SET MASKS (R162): bits 0 to 3 of the enables byte are the groups. -/
def State.setMasksRequest (s : State) (masks : BitVec 32) (groups : Byte) : State :=
  let s1 := s.answer .done false []
  { s1 with attention := { s1.attention with masks := masks, groups := groups.extractLsb' 0 4 } }

/-- SET_MASKS (R162). -/
def execSetMasks (tag : Byte) (masks : BitVec 32) (groups : Byte) (s : State) : Host.Outcome State Fault Refusal :=
  .next (State.finish (s.carryOut (.setMasks masks groups) tag (fun s => s.setMasksRequest masks groups)))

end Sys2Proof.Machine
end

