-- ==== Sys2Proof/Machine/Requests.lean ====
section
/-! DEFINITION. What the port does with a request whichever it is: taking one out of a frame (R166), and carrying out the
one that waited for the posted changes ahead of it (R167). -/

namespace Sys2Proof.Machine

/-- The effect of a request that is not posted, once the port carries it out (R167). -/
def State.requestEffect (s : State) : Request → State
  | .place f => s.placeRequest f
  | .change c => s.changeUnposted c
  | .lookup h => s.lookupRequest h
  | .find v => s.findRequest v
  | .walkStart form => s.walkStartRequest form
  | .walkNext => s.walkNextRequest
  | .setSite f => s.setSiteRequest f
  | .readSite => s.readSiteRequest
  | .setLink posting time => s.setLinkRequest posting time
  | .setPost f => s.setPostRequest f
  | .readPost post => s.readPostRequest post
  | .setClass f => s.setClassRequest f
  | .clearClass cls => s.clearClassRequest cls
  | .readClass cls => s.readClassRequest cls
  | .setTime minute second => s.setTimeRequest minute second
  | .readTime => s.readTimeRequest
  | .setMode mode => s.setModeRequest mode
  | .replan => s.replanRequest
  | .readAttention source => s.readAttentionRequest source
  | .clearAttention source flags => s.clearAttentionRequest source flags
  | .setMasks masks groups => s.setMasksRequest masks groups

/-- A request comes to the port (R166 to R168). -/
def State.takeRequest (s : State) (r : Request) (tag : Byte) : State :=
  match r with
  | .change c => s.changeRequest c tag
  | r => s.carryOut r tag (fun t => t.requestEffect r)

/-- The request that waited for posted changes is carried out when the last of them has drained (R167), after a round that
the drained change made due has started (R117; log entry 11). -/
def State.carryWaiting (s : State) : State :=
  match s.link.posting, s.link.inProgress with
  | [], some { request := r, stage := .taken, .. } => s.startDue.requestEffect r
  | _, _ => s

/-- What follows the completion of a LINK access at once: the waiting request is carried out when nothing is ahead of it any
more, and then what follows every event. -/
def State.finishLink (s : State) : State := s.carryWaiting.finish

end Sys2Proof.Machine
end

