-- ==== Sys2Proof/Machine/LinkAccess.lean ====
section
/-! DEFINITION. The store accesses of the site link port: CREATE_ACCESS, AMEND_ACCESS, WITHDRAW_ACCESS, FREE_ACCESS,
READ_ACCESS and INDEX_READ (01, 02, 11). Each acts when it is the access in flight, and completes it; a request that
waited for a posted change is then carried out (R167). -/

namespace Sys2Proof.Machine

/-! ### CREATE_ACCESS (R8 to R10) -/

/-- A target brought to 10.0 to 28.0 °C (R9). -/
def clampTarget (t : Int) : Int := clampInt 100 280 t

/-- An earliest start as it is stored beside a departure (R9, R12). -/
def clampEarliest (now : Nat) (earliest : Option Nat) (departure : Nat) : Option Nat :=
  earliest.map (fun e => if clampsEarliest now e departure then departure else e)

/-- All checks of PLACE, made within the create access (R8). -/
def State.createChecks (s : State) (f : PlaceFields) : List (Bool × Status) :=
  s.placeChecks f ++
    [(s.store.duplicate f.vehicle f.departure none, .duplicate),
     (s.store.vehicleFull f.vehicle none, .vehicleFull),
     (s.store.freeSlot.isNone, .tableFull)]

/-- The record of an accepted PLACE (R9, R10). -/
def newOrder (now : Nat) (h : Handle) (f : PlaceFields) (cls : Fin 16) (tier : Tier) : Order :=
  { handle := h, vehicle := f.vehicle, departure := f.departure, target := clampTarget f.target, cls := cls, tier := tier
    state := .pending, earliest := clampEarliest now f.earliest? f.departure, hold := f.hold?.map (min 60)
    boundPost := none, stall := none, outcome := none, estimate := none, grant := 0, short := false, behind := false
    reached := none, energy := 0 }

/-- A clamp of R9 acted on a PLACE. -/
def PlaceFields.clamped (now : Nat) (f : PlaceFields) : Bool :=
  clampTarget f.target ≠ f.target || clampEarliest now f.earliest? f.departure ≠ f.earliest? || f.hold?.any (fun m => 60 < m)

/-- The store's part of a creation (R10): record, directory entry and vehicle index. -/
def Store.create (st : Store) (now : Nat) (n : Fin 64) (o : Order) : Store :=
  ((st.writeOrder n o).setOccupancy n .live).indexInsert now o.vehicle { handle := o.handle, departure := o.departure }

/-- The create access, when served (R8 to R10). -/
def State.createAccess (s : State) (f : PlaceFields) : State :=
  match firstRefusal (s.createChecks f) with
  | some status => s.linkDone status false []
  | none =>
    match s.store.freeSlot, classOf? f.cls, tierOf? f.tier with
    | some n, some cls, some tier =>
      let h := s.store.slotHandle n
      let o := newOrder s.clock.minute h f cls tier
      State.linkDone
        { s with
          store := s.store.create s.clock.minute n o
          classes := addUser s.classes cls n
          bus := s.bus.orderPending f.vehicle }
        .done (PlaceFields.clamped s.clock.minute f) h.bytes
    | _, _, _ => s.linkDone .badField false []

/-- CREATE_ACCESS (R10). -/
def execCreateAccess (s : State) : Host.Outcome State Fault Refusal :=
  .next
    (match s.arbiter.inFlight with
    | some (.link (.create f)) => (s.completed.createAccess f).finishLink
    | _ => s)

/-! ### AMEND_ACCESS (R11 to R13, R24) -/

/-- The departure as it would stand after an AMEND (R12). -/
def newDeparture (o : Order) (f : AmendFields) : Nat := f.departure?.getD o.departure

/-- The vehicle number as it would stand after an AMEND. -/
def newVehicle (o : Order) (f : AmendFields) : Nat := f.vehicle?.getD o.vehicle

/-- The earliest start as it would stand after an AMEND, before the clamp. -/
def newEarliest (o : Order) (f : AmendFields) : Option Nat :=
  if f.clearsEarliest then none else f.setEarliest?.orElse (fun _ => o.earliest)

/-- The hold extension as it would stand after an AMEND. -/
def newHold (o : Order) (f : AmendFields) : Option Nat :=
  if f.clearsHold then none else (f.setHold?.map (min 60)).orElse (fun _ => o.hold)

/-- The checks of AMEND within its access, against the record (R11, R12). -/
def State.amendChecks (s : State) (h : Handle) (o : Order) (f : AmendFields) : List (Bool × Status) :=
  (AmendFields.locked f o.state, .locked) :: s.amendFieldChecks f ++
    [(s.store.duplicate (newVehicle o f) (newDeparture o f) (some h), .duplicate),
     (f.vehicle?.any (fun v => s.store.vehicleFull v (some h)), .vehicleFull)]

/-- AMEND names the departure or the target, whose change removes the reached minute (R13, log entry 9). -/
def AmendFields.retimes (f : AmendFields) : Bool := f.departure?.isSome || f.target?.isSome

/-- The record after an accepted AMEND (R12, R13). -/
def Order.amend (o : Order) (now : Nat) (f : AmendFields) : Order :=
  { o with
    vehicle := newVehicle o f
    departure := newDeparture o f
    target := (f.target?.map clampTarget).getD o.target
    cls := (f.cls?.bind classOf?).getD o.cls
    tier := (f.tier?.bind tierOf?).getD o.tier
    earliest := clampEarliest now (newEarliest o f) (newDeparture o f)
    hold := newHold o f
    reached := if AmendFields.retimes f then none else o.reached }

/-- A clamp of R12 acted on an AMEND. -/
def amendClamped (o : Order) (now : Nat) (f : AmendFields) : Bool :=
  f.target?.any (fun t => clampTarget t ≠ t) || f.setHold?.any (fun m => 60 < m) ||
    clampEarliest now (newEarliest o f) (newDeparture o f) ≠ newEarliest o f

/-- AMEND sets replan pending: it names departure, target, class, tier or earliest start, or its clamp changes the
earliest start (R13, log entry 9). -/
def amendReplans (o : Order) (now : Nat) (f : AmendFields) : Bool :=
  AmendFields.retimes f || f.cls?.isSome || f.tier?.isSome || f.setEarliest?.isSome || f.clearsEarliest ||
    (o.amend now f).earliest ≠ o.earliest

/-- The store's part of an accepted AMEND (R13): the record, and the vehicle index when departure or vehicle number are
named. -/
def Store.amend (st : Store) (now : Nat) (h : Handle) (o : Order) (f : AmendFields) : Store :=
  let o' := o.amend now f
  let st1 := st.writeOrder h.slot o'
  if f.departure?.isSome || f.vehicle?.isSome then
    (st1.indexRemove o.vehicle h).indexInsert now o'.vehicle { handle := h, departure := o'.departure }
  else st1

/-- An accepted AMEND (R13). A request that names no field changes nothing. -/
def State.amendApply (s : State) (h : Handle) (o : Order) (f : AmendFields) : State :=
  if f.namesAny then
    State.linkDone
      { s with
        store := s.store.amend s.clock.minute h o f
        classes :=
          if f.cls?.isSome then addUser (dropUser s.classes h.slot) (o.amend s.clock.minute f).cls h.slot else s.classes
        planner := if amendReplans o s.clock.minute f then s.planner.setReplan else s.planner
        bus := f.vehicle?.elim s.bus s.bus.orderPending }
      .done (amendClamped o s.clock.minute f) h.bytes
  else s.linkDone .done false h.bytes

/-- What an access finds of the live order a handle names: its record, or a refusal for LINK (R27, R36), or damage
(R39, R40). -/
inductive Found where
  | refused (status : Status)
  | damaged (h : Handle)
  | order (h : Handle) (o : Order)
  deriving DecidableEq, Repr

/-- The live order a request's handle names, read and verified. The verdict comes first: a handle that is not live is not
read (R36, log entry 17). -/
def Store.findLive (st : Store) (r : RawHandle) : Found :=
  match r.handle? with
  | none => .refused .unknownHandle
  | some h =>
    match st.verdict h with
    | .unknown => .refused .unknownHandle
    | .closed => .refused .closed
    | .live =>
      match st.readOrder h.slot with
      | none => .damaged h
      | some o => .order h o

/-- The amend access, when served (R11 to R13, R24, R29). -/
def State.amendAccess (s : State) (f : AmendFields) : State :=
  match s.store.findLive f.handle with
  | .refused status => s.linkDone status false []
  | .damaged h => (s.damaged h).linkDone .closed false []
  | .order h o =>
    match firstRefusal (s.amendChecks h o f) with
    | some status => s.linkDone status false []
    | none => s.amendApply h o f

/-- AMEND_ACCESS (R13, R169). -/
def execAmendAccess (s : State) : Host.Outcome State Fault Refusal :=
  .next
    (match s.arbiter.inFlight with
    | some (.link (.amend f)) => (s.completed.amendAccess f).finishLink
    | _ => s)

/-! ### WITHDRAW_ACCESS and FREE_ACCESS (R14 to R16, R24) -/

/-- The withdraw access, when served (R14, R15, R24). -/
def State.withdrawAccess (s : State) (r : RawHandle) : State :=
  match s.store.findLive r with
  | .refused status => s.linkDone status false []
  | .damaged h => (s.damaged h).linkDone .closed false []
  | .order h o => (s.closeOrder h o .withdrawn).linkDone .done false r.bytes

/-- WITHDRAW_ACCESS (R14, R169). -/
def execWithdrawAccess (s : State) : Host.Outcome State Fault Refusal :=
  .next
    (match s.arbiter.inFlight with
    | some (.link (.withdraw r)) => (s.completed.withdrawAccess r).finishLink
    | _ => s)

/-- The free access, when served: it reads no record and verifies no check code (R16, R39). -/
def State.freeAccess (s : State) (r : RawHandle) : State :=
  match r.handle? with
  | none => s.linkDone .unknownHandle false []
  | some h =>
    match s.store.verdict h with
    | .unknown => s.linkDone .unknownHandle false []
    | .live => s.linkDone .notClosed false []
    | .closed => State.linkDone { s with store := s.store.free h.slot } .done false r.bytes

/-- FREE_ACCESS (R16, R169). -/
def execFreeAccess (s : State) : Host.Outcome State Fault Refusal :=
  .next
    (match s.arbiter.inFlight with
    | some (.link (.free r)) => (s.completed.freeAccess r).finishLink
    | _ => s)

/-! ### READ_ACCESS and INDEX_READ (R33, R41, R42, R170) -/

/-- The read access, when served: the record image, or the damaged form, with the status the request replies (R170 to
R172). A damaged record found by a RANK step that begins again is replied RESTARTED, as R172 has it, where R42 says DONE.
DESIGN CHOICE, log entry 36. A handle that has come to be unknown cannot arise (R170); the model then answers UNKNOWN
HANDLE. -/
def State.readAccess (s : State) (h : Handle) (status : Status) : State :=
  if s.store.verdict h = .unknown then s.linkDone .unknownHandle false []
  else
    match s.store.readOrder h.slot with
    | some o => s.linkDone status false o.image
    | none =>
      let t := if (s.store.dir h.slot).damaged then s else s.damaged h
      t.linkDone status false (damagedImage h ((s.store.dir h.slot).vehicle.getD 0))

/-- READ_ACCESS (R170). -/
def execReadAccess (s : State) : Host.Outcome State Fault Refusal :=
  .next
    (match s.arbiter.inFlight with
    | some (.link (.read h status)) => (s.completed.readAccess h status).finishLink
    | _ => s)

/-- The index read, when served: the handles of the vehicle's list in list order; no record is touched (R33). -/
def State.indexRead (s : State) (v : Nat) : State :=
  s.linkDone .done false (findImage v ((s.store.vehicleEntries v).map IndexEntry.handle))

/-- INDEX_READ (R33). -/
def execIndexRead (s : State) : Host.Outcome State Fault Refusal :=
  .next
    (match s.arbiter.inFlight with
    | some (.link (.index v)) => (s.completed.indexRead v).finishLink
    | _ => s)

end Sys2Proof.Machine
end

