-- ==== Sys2Proof/Machine/PostAccess.lean ====
section
/-! DEFINITION. The store accesses of the post bus engine: BIND_ACCESS, UNBIND_ACCESS, STALL_ENTRY,
STALL_CAUSE_REPLACEMENT, RECOVERY, ADD_ENERGY and ZERO_GRANT_ON_SHED (01 section 2.7, 04, 05). Each acts when it is the
access in flight, and completes it. -/

namespace Sys2Proof.Machine

/-! ### The target of an access on the order bound at a post (R36, R42) -/

/-- What an access on a bound order finds: its target stale, its record damaged, or the record. -/
inductive PostFound where
  | stale
  | damaged
  | order (o : Order)
  deriving DecidableEq, Repr

/-- The order bound at a post, read and verified, when the post's entry still names the handle and the handle is live
(R36, R39). -/
def Store.findBound (st : Store) (n : Fin 24) (h : Handle) : PostFound :=
  if st.table[n] = some h ∧ st.verdict h = .live then
    match st.readOrder h.slot with
    | none => .damaged
    | some o => .order o
  else .stale

/-- Carries out an access on the order bound at a post: a stale target drops the event, a damaged record is closed by
damage (R36, R42). A stale unbind access too leaves entry and post as they are, although R91 and R93 speak of its result.
DESIGN CHOICE, log entry 32. -/
def State.onBound (s : State) (n : Fin 24) (h : Handle) (effect : Order → State) : State :=
  match s.store.findBound n h with
  | .stale => s
  | .damaged => s.damaged h
  | .order o => effect o

/-- Writes the record of the order an access acts on. -/
def State.writeOrder (s : State) (h : Handle) (o : Order) : State := { s with store := s.store.writeOrder h.slot o }

/-! ### BIND_ACCESS (R86 to R90) -/

/-- An order is a candidate of a binding attempt (R88). -/
def Store.candidate (st : Store) (now horizon : Nat) (e : IndexEntry) : Bool :=
  (st.dir e.handle.slot).state = some .pending && 0 ≤ aheadMinutes now e.departure &&
    aheadMinutes now e.departure ≤ (horizon : Int)

/-- The entry with the smallest ahead-minutes (R88). -/
def soonest (now : Nat) : List IndexEntry → Option IndexEntry
  | [] => none
  | e :: es =>
    match soonest now es with
    | none => some e
    | some x => if aheadMinutes now x.departure < aheadMinutes now e.departure then some x else some e

/-- The conflict test: an order of the vehicle is bound at another post (R87). -/
def Store.boundElsewhere (st : Store) (v : Nat) : Bool :=
  (st.vehicleEntries v).any (fun e => (st.dir e.handle.slot).boundPost.isSome)

/-- The results of a binding attempt (R86 to R89). -/
inductive BindResult where
  | stale
  | conflict
  | noCandidate
  | damaged (h : Handle)
  | bound (h : Handle) (o : Order)
  deriving DecidableEq, Repr

/-- The result of a binding attempt for a vehicle (R86 to R89). -/
def Store.bindResult (st : Store) (now horizon : Nat) (vehicle : Option Nat) : BindResult :=
  match vehicle with
  | none => .stale
  | some v =>
    if st.boundElsewhere v then .conflict
    else
      match soonest now ((st.vehicleEntries v).filter (st.candidate now horizon)) with
      | none => .noCandidate
      | some e =>
        match st.readOrder e.handle.slot with
        | none => .damaged e.handle
        | some o => .bound e.handle o

/-- The record after a binding (R89). -/
def Order.bind (o : Order) (n : Fin 24) : Order :=
  { o with
    state := .waiting, boundPost := some n, estimate := none, reached := none, grant := 0, short := false
    behind := false, stall := none }

/-- The engine records the reason at a post that is still OCCUPIED (R83, log entry 22). -/
def Post.setCondition (p : Post) (c : Condition) : Post := if p.state = .occupied then { p with condition := c } else p

/-- The post at a binding notice moves to BOUND, with condition NONE and no baseline (R77, R90). -/
def Post.bound (p : Post) : Post := { p with state := .bound, condition := .none, baseline := none }

/-- The engine at a binding notice for an order of vehicle `v` (the table of R90). A post that is not OCCUPIED although
neither note is set cannot arise; it is left as it stands (log entry 24). -/
def Bus.bindingNotice (b : Bus) (n : Fin 24) (h : Handle) (v : Nat) (note : BindNote) : Bus :=
  if note.serviceOut then b.present [.unbind n h .serviceOut]
  else if note.plugOut then b.present [.unbind n h .unplug]
  else if b.posts[n].state ≠ .occupied then b
  else if b.posts[n].silent then
    (b.modify n (fun p => p.bound.setRecorded 0)).present [.stall n h .postSilent]
  else if b.posts[n].current.vehicle ≠ 0 ∧ b.posts[n].current.vehicle ≠ v then
    (b.modify n (fun p => p.bound.setRecorded 0)).present [.unbind n h .vehicleChange]
  else b.modify n Post.bound

/-- The binding attempt, when served, and its completion (R86 to R90). -/
def State.bindAccess (s : State) (n : Fin 24) (note : BindNote) : State :=
  match s.store.bindResult s.clock.minute s.site.horizon note.vehicle with
  | .stale => s
  | .conflict => { s with bus := s.bus.modify n (fun p => p.setCondition .conflict) }
  | .noCandidate => { s with bus := s.bus.modify n (fun p => p.setCondition .unordered) }
  | .damaged h =>
    let t := s.damaged h
    { t with bus := t.bus.trigger (fun q => q = n) }
  | .bound h o =>
    { s with
      store := (s.store.writeOrder h.slot (o.bind n)).setTable n (some h)
      planner := s.planner.setReplan
      bus := s.bus.bindingNotice n h (note.vehicle.getD 0) note }

/-- BIND_ACCESS (R86). -/
def execBindAccess (s : State) : Host.Outcome State Fault Refusal :=
  .next
    (match s.arbiter.inFlight with
    | some (.bind n note) => (s.completed.bindAccess n note).finish
    | _ => s)

/-! ### UNBIND_ACCESS (R91 to R95) -/

/-- The unbind returns the order to PENDING: always for service OUT, and otherwise when the departure is ahead by more
than the depart window (R91). -/
def returnsToPending (now window : Nat) (cause : UnbindCause) (o : Order) : Bool :=
  cause = .serviceOut || (window : Int) < aheadMinutes now o.departure

/-- A return to PENDING (R92). -/
def State.returnToPending (s : State) (h : Handle) (o : Order) : State :=
  State.noticeUnbound
    { s with store := (s.store.writeOrder h.slot o.toPending).clearTable o.boundPost } h o.vehicle o.boundPost true

/-- The unbind access, when served (R91 to R95). -/
def State.unbindAccess (s : State) (n : Fin 24) (h : Handle) (cause : UnbindCause) : State :=
  s.onBound n h (fun o =>
    if returnsToPending s.clock.minute s.site.departWindow cause o then s.returnToPending h o
    else s.closeOrder h o (outcomeRule o))

/-- UNBIND_ACCESS (R91). -/
def execUnbindAccess (s : State) : Host.Outcome State Fault Refusal :=
  .next
    (match s.arbiter.inFlight with
    | some (.posts (.unbind n h cause)) => (s.completed.unbindAccess n h cause).finish
    | _ => s)

/-! ### STALL_ENTRY, STALL_CAUSE_REPLACEMENT and RECOVERY (R19 to R21) -/

/-- The record after an entry to STALLED (R19). -/
def Order.stallEntry (o : Order) (cause : StallCause) : Order :=
  { o with state := .stalled, stall := some cause, grant := 0, short := false, behind := false }

/-- The order bound at a post is STALLED by its directory entry: which of the two rows serves a stall access (log
entry 21). -/
def Store.stalledAt (st : Store) (n : Fin 24) (h : Handle) : Bool :=
  st.table[n] = some h && st.verdict h = .live && (st.dir h.slot).state = some .stalled

/-- An order in WAITING, HEATING or HOLDING enters STALLED (R19). -/
def State.stallEntry (s : State) (h : Handle) (cause : StallCause) (o : Order) : State :=
  if o.state = .waiting ∨ o.state = .heating ∨ o.state = .holding then s.writeOrder h (o.stallEntry cause) else s

/-- STALL_ENTRY (R19): it serves the stall access in flight unless the order is STALLED already. -/
def execStallEntry (s : State) : Host.Outcome State Fault Refusal :=
  .next
    (match s.arbiter.inFlight with
    | some (.posts (.stall n h cause)) =>
      if s.store.stalledAt n h then s
      else (s.completed.onBound n h (fun o => s.completed.stallEntry h cause o)).finish
    | _ => s)

/-- The stall cause of a STALLED order is replaced, the rest of the record as it stands (R20). -/
def State.stallReplace (s : State) (h : Handle) (cause : StallCause) (o : Order) : State :=
  if o.state = .stalled then s.writeOrder h { o with stall := some cause } else s

/-- STALL_CAUSE_REPLACEMENT (R20): it serves the stall access in flight when the order is STALLED already, or when the
target is stale. -/
def execStallCauseReplacement (s : State) : Host.Outcome State Fault Refusal :=
  .next
    (match s.arbiter.inFlight with
    | some (.posts (.stall n h cause)) =>
      if s.store.stalledAt n h || s.store.findBound n h = .stale then
        (s.completed.onBound n h (fun o => s.completed.stallReplace h cause o)).finish
      else s
    | _ => s)

/-- A STALLED order returns to WAITING; an order in another state is left as it is (R21, R76). -/
def State.recover (s : State) (h : Handle) (o : Order) : State :=
  if o.state = .stalled then
    { s.writeOrder h { o with state := .waiting, stall := none, grant := 0 } with planner := s.planner.setReplan }
  else s

/-- RECOVERY (R21). -/
def execRecovery (s : State) : Host.Outcome State Fault Refusal :=
  .next
    (match s.arbiter.inFlight with
    | some (.posts (.recover n h)) => (s.completed.onBound n h (fun o => s.completed.recover h o)).finish
    | _ => s)

/-! ### ADD_ENERGY and ZERO_GRANT_ON_SHED (R5, R77) -/

/-- ADD_ENERGY (R77): the increment is added to the delivered energy, which stops at 65535 kJ. -/
def execAddEnergy (s : State) : Host.Outcome State Fault Refusal :=
  .next
    (match s.arbiter.inFlight with
    | some (.posts (.addEnergy n h kj)) =>
      (s.completed.onBound n h (fun o =>
        s.completed.writeOrder h { o with energy := min Config.energyMax (o.energy + kj) })).finish
    | _ => s)

/-- ZERO_GRANT_ON_SHED (R5, R151): the order's grant field becomes 0. -/
def execZeroGrantOnShed (s : State) : Host.Outcome State Fault Refusal :=
  .next
    (match s.arbiter.inFlight with
    | some (.posts (.zeroGrant n h)) =>
      (s.completed.onBound n h (fun o => s.completed.writeOrder h { o with grant := 0 })).finish
    | _ => s)

end Sys2Proof.Machine
end

