-- ==== Sys2Proof/Machine/Resets.lean ====
section
/-! DEFINITION. POWER_ON, RESTART and SECOND_BOUNDARY. -/

namespace Sys2Proof.Machine

/-- POWER_ON (R43, R58, R82, R103, R128, R155, R163, R177): every piece of state takes its power-on value. The input
lines stay as they are driven, and one that is high starts its filter timer at once (R65, R146; log entry 7). The
queue of commands, which is not the part's, stays. -/
def execPowerOn (s : State) : Host.Outcome State Fault Refusal :=
  .next
    { State.reset with
      plug := Vector.ofFn (fun n => s.plug[n].restart)
      supply := { Supply.init with limit := s.supply.limit.restart, shed := s.supply.shed.restart }
      pending := s.pending }

/-- The order store at a restart (R44): every slot FREE, a slot that was not FREE with its generation advanced. -/
def Store.restart (st : Store) : Store :=
  { Store.init with
    slots := Vector.ofFn (fun n =>
      { dir :=
          DirEntry.freeAt
            (if (st.dir n).occupancy = .free then (st.dir n).generation else ((st.dir n).generation + 1) % 256)
        record := none }) }

/-- The site link port at a restart (R177): link options and the replies already sent kept, the timer restarted when the
supervision time is above 0. -/
def Link.restart (l : Link) : Link :=
  { Link.init with
    postingEnabled := l.postingEnabled, supervisionTime := l.supervisionTime
    supervision := if l.supervisionTime = 0 then none else some 0, resetCause := .restart, sent := l.sent }

/-- The engine at a restart (R82). -/
def Bus.restart (b : Bus) : Bus :=
  { posts := Vector.ofFn (fun i => b.posts[i].restart), rotation := 23, exchange := none, queue := [] }

/-- The site mode the forced mode gives at a restart (R155). -/
def ForcedMode.mode : ForcedMode → SiteMode
  | .none => .normal
  | .limited => .limited
  | .shed => .shed

/-- The supply monitor at a restart (R155). -/
def Supply.restart (x : Supply) : Supply :=
  { Supply.init with
    limit := x.limit.restart, shed := x.shed.restart, forced := x.forced, mode := x.forced.mode }

/-- RESTART (R23, R44, R58, R82, R103, R128, R155, R163, R177): every order ends without a close, run-time work is
abandoned, configuration and depot time are kept. -/
def execRestart (s : State) : Host.Outcome State Fault Refusal :=
  .next
    { s with
      store := s.store.restart
      arbiter := Arbiter.init
      link := s.link.restart
      bus := s.bus.restart
      plug := Vector.ofFn (fun n => s.plug[n].restart)
      classes := Vector.ofFn (fun c => { s.classes[c] with users := [] })
      planner := Planner.init
      supply := s.supply.restart
      attention := s.attention.restart }

/-- SECOND_BOUNDARY (R45, R47): the depot clock advances and no other block is told. -/
def execSecondBoundary (s : State) : Host.Outcome State Fault Refusal := .next { s with clock := s.clock.tick }

end Sys2Proof.Machine
end

