-- ==== Sys2Proof/Machine/Rounds.lean ====
section
/-! DEFINITION. The planning round: ROUND_TIMER_EXPIRY, SNAPSHOT_READ, SWEEP_READ, ROUND_COMPUTE and WRITE_BACK, with
the release (07, 08, 09). An access of the planner acts when it is the access in flight, and completes it. -/

namespace Sys2Proof.Machine

/-- ROUND_TIMER_EXPIRY (R116 to R118): a round starts, or the expiry is an overrun. -/
def execRoundTimerExpiry (s : State) : Host.Outcome State Fault Refusal := .next (State.finish s.roundTimerExpires)

/-- Changes the round in flight. -/
def Planner.mapRound (p : Planner) (f : Round → Round) : Planner := { p with round := p.round.map f }

/-- The round in flight moves on when its list of reads is used up. -/
def State.advanceRound (s : State) : State := { s with planner := s.planner.mapRound (Round.advance s.store) }

/-! ### SNAPSHOT_READ (R120, R121) -/

/-- The parameters of a class; those of an undefined class, which no live order names, stand as 0 (log entry 24). -/
def ClassEntry.paramsOrZero (e : ClassEntry) : ClassParams :=
  e.params.getD { c := 0, g := 0, pmax := 0, pmin := 0, h := 0, m := 0 }

/-- The round row of an order and its post (R121). -/
def State.makeRow (s : State) (n : Fin 24) (h : Handle) (o : Order) : Row :=
  { post := n, handle := h, state := o.state, vehicle := o.vehicle, departure := o.departure, target := o.target
    cls := o.cls, tier := o.tier, earliest := o.earliest, hold := o.hold, reached := o.reached
    params := s.classes[o.cls].paramsOrZero, inService := s.bus.posts[n].inService, heater := s.bus.posts[n].heater
    feedLimit := s.bus.posts[n].feedLimit, silent := s.bus.posts[n].silent, report := s.bus.posts[n].current
    age := s.bus.posts[n].age, sent := s.bus.posts[n].sent }

/-- A row joins the round, unmarked and without a result. -/
def Round.addRow (r : Round) (row : Row) : Round :=
  { r with rows := r.rows ++ [{ row := row, struck := false, kept := false, result := none }] }

/-- The snapshot read, when served (R120): stale, damaged, or a row made. -/
def State.snapshotRead (s : State) (n : Fin 24) (h : Handle) : State :=
  if s.store.table[n] = some h ∧ s.store.verdict h = .live then
    match s.store.readOrder h.slot with
    | none => s.damaged h
    | some o => { s with planner := s.planner.mapRound (fun r => r.addRow (s.makeRow n h o)) }
  else s

/-- SNAPSHOT_READ (R120). -/
def execSnapshotRead (s : State) : Host.Outcome State Fault Refusal :=
  .next
    (match s.arbiter.inFlight with
    | some (.plan (.snapshot n h)) => (s.completed.snapshotRead n h).advanceRound.finish
    | _ => s)

/-! ### SWEEP_READ (R122) -/

/-- The sweep read, when served (R122): a PENDING order whose departure reads as behind the round's now by more than the
round's grace closes. An order that is no longer PENDING by the directory is left without a read of its record, although
a damaged one meets R122's second case too. DESIGN CHOICE, log entry 35. -/
def State.sweepRead (s : State) (h : Handle) : State :=
  match s.planner.round with
  | none => s
  | some r =>
    if s.store.verdict h = .live ∧ (s.store.dir h.slot).state = some .pending then
      match s.store.readOrder h.slot with
      | none => s.damaged h
      | some o => if behindBy r.now o.departure r.grace then s.closeOrder h o (outcomeRule o) else s
    else s

/-- SWEEP_READ (R122). -/
def execSweepRead (s : State) : Host.Outcome State Fault Refusal :=
  .next
    (match s.arbiter.inFlight with
    | some (.plan (.sweep h)) => (s.completed.sweepRead h).advanceRound.finish
    | _ => s)

/-! ### ROUND_COMPUTE (R123) -/

/-- One entry ranks at or before another: effective slack ascending, equal slack in ascending post number (R123, R138). -/
def RowEntry.ranksBefore (now : Nat) (fallback : Int) (a b : RowEntry) : Bool :=
  a.row.slack now fallback < b.row.slack now fallback ||
    (a.row.slack now fallback = b.row.slack now fallback && a.row.post ≤ b.row.post)

/-- Inserts an entry in rank order. -/
def rankInsert (now : Nat) (fallback : Int) (e : RowEntry) : List RowEntry → List RowEntry
  | [] => [e]
  | x :: xs => if e.ranksBefore now fallback x then e :: x :: xs else x :: rankInsert now fallback e xs

/-- The rows in rank order (R123, step 2). -/
def rankRows (now : Nat) (fallback : Int) : List RowEntry → List RowEntry
  | [] => []
  | e :: es => rankInsert now fallback e (rankRows now fallback es)

/-- The planner marks a row a non-candidate (R123, R131). -/
def Row.nonCandidate (r : Row) (request : Nat) : Bool :=
  r.state = .stalled || !r.inService || r.silent || request = 0

/-- What the planner hands the allocator for a row (R123, R130). -/
def Row.allocRow (r : Row) (now startLead : Nat) (fallback : Int) : AllocRow :=
  { request := (r.estimate now startLead fallback).request
    heater := r.heater, lowest := r.limits.lowest, half := r.limits.half, pmaxEff := r.limits.pmaxEff, sent := r.sent
    eligible := r.eligible now startLead fallback, holding := r.holding
    nonCandidate := r.nonCandidate (r.estimate now startLead fallback).request }

/-- Sets the result of an entry from its estimate and its grant (R123, R141). -/
def RowEntry.withGrant (r : Round) (e : RowEntry) (g : AllocRow × Nat) : RowEntry :=
  { e with
    result := some
      { estimate := e.row.estimate r.now r.startLead r.fallback
        eligible := e.row.eligible r.now r.startLead r.fallback
        holding := e.row.holding
        grant := g.2
        short := g.1.short g.2 } }

/-- The rows of a round in rank order, each with its estimate, grant and SHORT (R123). -/
def Round.computed (r : Round) (headroom ramp : Nat) : List RowEntry :=
  let ranked := rankRows r.now r.fallback r.rows
  List.zipWith (RowEntry.withGrant r) ranked
    (allocate headroom ramp (ranked.map (fun e => e.row.allocRow r.now r.startLead r.fallback))).1

/-! ### The release (R126) -/

/-- The surviving rows' handles in rank order (R126, step 1). -/
def Round.survivors (r : Round) : List Handle :=
  (r.rows.filter (fun e => e.kept && !e.struck)).map (fun e => e.row.handle)

/-- The held fields of a pending report replace those of the current report (R80). -/
def Report.merge (p : Report) (held : PendingReport) : Report :=
  { vehicle := held.vehicle.getD p.vehicle
    cabin := if held.cabin.isSome then held.cabin else p.cabin
    outside := held.outside.getD p.outside }

/-- A post at the release: its round mark cleared and its held fields current (R80, R126). -/
def Post.released (p : Post) : Post :=
  { p with roundMark := false, current := p.current.merge p.held, held := PendingReport.none }

/-- The release brings a BOUND post a vehicle number that is nonzero and differs from the one it held (R79, R93). -/
def Post.releaseChanges (p : Post) : Bool :=
  p.state = .bound && p.released.current.vehicle ≠ 0 && p.released.current.vehicle ≠ p.current.vehicle

/-- The engine at a release (R80, R126 steps 2 and 3): the pending reports become current, vehicle changes are taken in
ascending post number, and every qualifying post receives an attempt (R84, R85). -/
def Bus.release (b : Bus) (table : Vector (Option Handle) 24) : Bus :=
  Bus.trigger
    ((allPosts.filter (fun n => b.posts[n].releaseChanges)).foldl (fun c n => c.vehicleChange table n)
      (b.mapPosts Post.released))
    (fun _ => true)

/-- A RANK walk notes that the ranking it walks has been replaced (R172). -/
def Walk.noteReplaced : Walk → Walk
  | .rank returned _ => .rank returned true
  | w => w

/-- The release of a round (R126): the ranking, the posts, the attempts, a held SET CLASS, and IDLE. -/
def State.release (s : State) (r : Round) : State :=
  State.applyHeld
    { s with
      planner := { s.planner with ranking := r.survivors, round := none }
      bus := s.bus.release s.store.table
      link := { s.link with walk := s.link.walk.noteReplaced } }

/-- A round whose write-backs are all made releases (R125, R126). -/
def State.releaseIfDone (s : State) : State :=
  match s.planner.round with
  | some r => if r.phase = .writeBack [] then s.release r else s
  | none => s

/-- COMPUTE (R123): estimate, rank, headroom and allocation, then WRITE-BACK. -/
def State.compute (s : State) (r : Round) : State :=
  let rows := r.computed (s.headroomNow r.rows) (rampAllowance s.site)
  { s with
    supply := s.supplyRead r.rows
    planner := { s.planner with
      round := some { r with phase := .writeBack (rows.map (fun e => e.row.post)), rows := rows } } }

/-- ROUND_COMPUTE (R123); a round with no rows releases at once (R125). -/
def execRoundCompute (s : State) : Host.Outcome State Fault Refusal :=
  .next
    (match s.planner.round with
    | some r => if r.phase = .compute then (s.compute r).releaseIfDone.finish else s
    | none => s)

/-! ### WRITE_BACK (R124, R125) -/

/-- The overstay limit of an order (R56). -/
def Order.overstayLimit (o : Order) (grace : Nat) : Nat := o.hold.getD grace

/-- The state a write-back decides for an order that is not STALLED (R125, steps 3 to 5). -/
def RowResult.decides (x : RowResult) : OrderState :=
  if x.holding then .holding else if x.eligible then .heating else .waiting

/-- The reached minute after a write-back (R6, R125 step 3). -/
def reachedAfter (o : Order) (row : Row) (x : RowResult) (now : Nat) : Option Nat :=
  if o.reached = none ∧ x.holding ∧ ¬ isBehind now o.departure ∧ o.departure = row.departure ∧
      o.target = row.target then some now
  else o.reached

/-- An access that the engine presents for the order bound at a post on a stall, a vehicle change or an entry into SHED
(R81). -/
def PostAccess.holdsGrantBack (n : Fin 24) (h : Handle) : PostAccess → Bool
  | .stall p k _ => p = n && k = h
  | .unbind p k .vehicleChange => p = n && k = h
  | .zeroGrant p k => p = n && k = h
  | _ => false

/-- The grant the engine takes when a write-back offers one (R81). -/
def State.takenGrant (s : State) (n : Fin 24) (h : Handle) (decided : OrderState) (offered : Nat) : Nat :=
  if s.bus.posts[n].inService ∧ s.bus.posts[n].state = .bound ∧ s.store.table[n] = some h ∧
      s.bus.posts[n].silent = false ∧ s.supply.mode ≠ .shed ∧ (decided = .heating ∨ decided = .holding) ∧
      s.bus.queue.any (PostAccess.holdsGrantBack n h) = false then offered
  else 0

/-- The row's grant lowered to a deliverable level under the class the record names (R115). -/
def State.loweredGrant (s : State) (n : Fin 24) (o : Order) (grant : Nat) : Nat :=
  (heaterLimits s.classes[o.cls].paramsOrZero s.bus.posts[n].heater s.bus.posts[n].feedLimit).lower grant

/-- SHORT as the write-back writes it (R141): as the allocator returned it, or, for a lowered grant, whether that lies
below the request. -/
def RowResult.shortWritten (x : RowResult) (lowered : Nat) : Bool :=
  if lowered < x.grant then lowered < x.estimate.request else x.short

/-- The record after a write-back that decides its state (R125). -/
def Order.writtenBack (o : Order) (row : Row) (x : RowResult) (now lowered taken : Nat) : Order :=
  { o with
    state := x.decides, estimate := some x.estimate, grant := taken, short := x.shortWritten lowered
    behind := x.decides = .heating && x.estimate.slack < 0, reached := reachedAfter o row x now }

/-- A write-back that decides the order's state: the record, and the post's recorded grant (R81, R125). -/
def State.writeDecision (s : State) (e : RowEntry) (x : RowResult) (o : Order) (now : Nat) : State :=
  let lowered := s.loweredGrant e.row.post o x.grant
  let taken := s.takenGrant e.row.post e.row.handle x.decides lowered
  { s with
    store := s.store.writeOrder e.row.handle.slot (o.writtenBack e.row x now lowered taken)
    bus := s.bus.modify e.row.post (fun p => p.setRecorded taken) }

/-- Marks the entry of a post as surviving (R126). -/
def RowEntry.keep (n : Fin 24) (e : RowEntry) : RowEntry := if e.row.post = n then { e with kept := true } else e

/-- The row of a post survives its write-back (R126). -/
def State.keepRow (s : State) (n : Fin 24) : State :=
  { s with planner := s.planner.mapRound (fun r => { r with rows := r.rows.map (RowEntry.keep n) }) }

/-- The decision of a write-back on an order that has passed the tests of R124 (R125). -/
def State.decide (s : State) (r : Round) (e : RowEntry) (x : RowResult) (o : Order) : State :=
  if behindBy r.now o.departure (o.overstayLimit r.grace) then s.closeOrder e.row.handle o (outcomeRule o)
  else if o.state = .stalled then
    State.keepRow
      { s with store := s.store.writeOrder e.row.handle.slot { o with estimate := some x.estimate } } e.row.post
  else (s.writeDecision e x o r.now).keepRow e.row.post

/-- The write-back of a row, when served (R124): discarded, closed by damage, or decided. A struck row is discarded without
a read of the record, which R124 does not say. DESIGN CHOICE, log entry 33. -/
def State.writeBackRow (s : State) (r : Round) (e : RowEntry) : State :=
  if e.struck ∨ s.store.verdict e.row.handle ≠ .live then s
  else
    match s.store.readOrder e.row.handle.slot, e.result with
    | none, _ => s.damaged e.row.handle
    | some _, none => s
    | some o, some x => if o.boundPost = some e.row.post then s.decide r e x o else s

/-- The write-back access of a post's row, when served. -/
def State.writeBack (s : State) (n : Fin 24) : State :=
  match s.planner.round with
  | none => s
  | some r =>
    match r.rows.find? (fun e => e.row.post = n) with
    | none => s
    | some e => s.writeBackRow r e

/-- WRITE_BACK (R124, R125); the last one releases the round (R126). -/
def execWriteBack (s : State) : Host.Outcome State Fault Refusal :=
  .next
    (match s.arbiter.inFlight with
    | some (.plan (.writeBack n)) => (s.completed.writeBack n).releaseIfDone.finish
    | _ => s)

end Sys2Proof.Machine
end

