-- ==== Sys2Proof/Machine/Exchanges.lean ====
section
/-! DEFINITION. Exchanges on the post bus: EXCHANGE_START, POST_REPLY and REPLY_TIMEOUT (04 sections 5.4 to 5.6). -/

namespace Sys2Proof.Machine

/-! ### EXCHANGE_START (R68 to R70) -/

/-- The lowest-numbered post with a reduction claim (R69, step 1). -/
def Bus.claimant (b : Bus) : Option (Fin 24) := allPosts.find? (fun n => b.posts[n].holdsClaim)

/-- The posts in ascending cyclic order, beginning after the rotation pointer. -/
def Bus.rotationOrder (b : Bus) : List (Fin 24) := allPosts.map (fun i => b.rotation + 1 + i)

/-- The next in-service post after the rotation pointer (R69, step 2). -/
def Bus.nextInRotation (b : Bus) : Option (Fin 24) := b.rotationOrder.find? (fun n => b.posts[n].inService)

/-- A post once an exchange with it is sent: the fetch mark set (R70), and at a SETPOINT the reduction claim cleared and
the final setpoint no longer owed (R61, R69; log entry 12). -/
def Post.visited (p : Post) (setpoint : Bool) : Post :=
  if setpoint then { p with fetchMark := true, claim := false, finalOwed := false } else { p with fetchMark := true }

/-- An exchange with a post is sent: a SETPOINT with the post's recorded grant in units of 100 W, or a POLL (R68, R70). -/
def Bus.send (b : Bus) (n : Fin 24) (setpoint : Bool) : Bus :=
  { b.modify n (fun p => p.visited setpoint) with
    exchange := some
      { post := n, level := if setpoint then some (b.posts[n].recorded / 100) else none, pollMode := b.posts[n].pollMode
        fetchMark := b.posts[n].fetchMark, plugInSince := false, timer := 0 } }

/-- The engine chooses the next post and begins an exchange with it (R69); with no post to serve it stays idle. -/
def Bus.startExchange (b : Bus) : Bus :=
  match b.claimant with
  | some n => b.send n true
  | none =>
    match b.nextInRotation with
    | some n => { b.send n b.posts[n].owed with rotation := n }
    | none => b

/-- EXCHANGE_START (R69): at most one exchange is in flight. -/
def execExchangeStart (s : State) : Host.Outcome State Fault Refusal :=
  .next (if s.bus.exchange.isSome then s else { s with bus := s.bus.startExchange })

/-! ### The sent grant (R75) -/

/-- The sent grant ends above the recorded grant, from a SETPOINT whose level was above it (R75). -/
def overshoots (level : Option Nat) (recorded : Nat) (sent : Option Nat) : Bool :=
  level.any (fun l => recorded < l * 100) && sent.any (fun w => recorded < w)

/-- Stores a sent grant at a completion, with the reduction claim R75 sets. The claim of an OUT post is its final setpoint
owed (R69). -/
def Post.withSent (p : Post) (level sent : Option Nat) : Post :=
  { p with
    sent := sent
    claim := p.claim || (p.inService && overshoots level p.recorded sent)
    finalOwed := p.finalOwed || (!p.inService && overshoots level p.recorded sent) }

/-- The sent grant at an answered completion (R75). -/
def Post.sentAnswered (p : Post) (level : Option Nat) (applied : Nat) : Post :=
  if level.isSome then p.withSent level (some (applied * 100)) else p

/-- The sent grant at an unanswered completion (R75). -/
def Post.sentUnanswered (p : Post) (level : Option Nat) : Post :=
  if level.isSome then p.withSent level (p.sent.map (fun w => max w ((level.getD 0) * 100))) else p

/-! ### Answered exchanges (R70 to R80) -/

/-- The reply's vehicle number and cabin reading were fetched after the post's last plug-in (R70). -/
def Exchange.fetched (x : Exchange) : Bool :=
  !x.plugInSince && (match x.pollMode with | .direct => true | .latent => x.fetchMark)

/-- The vehicle number a reply counts as carrying: 0 when it is discarded (R70, R72). -/
def carriedVehicle (x : Exchange) (p : Post) (r : ReportFields) : Nat :=
  if x.fetched && p.state ≠ .empty then r.vehicle else 0

/-- The cabin reading a reply counts as carrying (R70, R72). -/
def carriedCabin (x : Exchange) (p : Post) (r : ReportFields) : Option Int :=
  if x.fetched && p.state ≠ .empty then r.cabin else none

/-- The current report after a reply (R72). -/
def Report.take (c : Report) (vehicle : Nat) (cabin outside : Option Int) : Report :=
  { vehicle := if vehicle = 0 then c.vehicle else vehicle, cabin := cabin.orElse (fun _ => c.cabin), outside := outside }

/-- The pending report after a reply (R80). -/
def PendingReport.take (h : PendingReport) (vehicle : Nat) (cabin outside : Option Int) : PendingReport :=
  { vehicle := if vehicle = 0 then h.vehicle else some vehicle, cabin := cabin.orElse (fun _ => h.cabin)
    outside := some outside }

/-- The report fields of a reply go to the current report, or to the pending report under the round mark (R72, R80). -/
def Post.takeReport (p : Post) (vehicle : Nat) (cabin outside : Option Int) : Post :=
  if p.roundMark then { p with held := p.held.take vehicle cabin outside }
  else { p with current := p.current.take vehicle cabin outside }

/-- The reading age after an exchange (R73). -/
def ageAfter (age : Nat) (cabin : Option Int) : Nat := if cabin.isSome then 0 else min Config.ageMax (age + 1)

/-- The reading age steps from 2 to 3 (R73, R76). -/
def ageSteps (age : Nat) (cabin : Option Int) : Bool := age = 2 && cabin.isNone

/-- The energy counted since the baseline (R77). -/
def energyIncrement (baseline counter : Nat) : Nat := (counter + 65536 - baseline) % 65536

/-- The add-energy access of a reply at a BOUND post (R77). -/
def energyAccess (table : Vector (Option Handle) 24) (n : Fin 24) (baseline : Option Nat) (counter : Nat) :
    List PostAccess :=
  match baseline with
  | some b =>
    if energyIncrement b counter ≤ Config.energyStepMax then
      boundAccess table n (fun h => .addEnergy n h (energyIncrement b counter))
    else []
  | none => []

/-- The stall condition an answered reply raises at a BOUND post (R76). -/
def replyStall (p : Post) (r : ReportFields) (cabin : Option Int) : Option StallCause :=
  if r.heater = .fault then some .heaterFault else if ageSteps p.age cabin then some .staleReading else none

/-- The condition's access at a BOUND post: a stall, or the recovery test (R76). -/
def conditionAccess (table : Vector (Option Handle) 24) (n : Fin 24) (p : Post) (r : ReportFields)
    (cabin : Option Int) : List PostAccess :=
  match replyStall p r cabin with
  | some cause => boundAccess table n (fun h => .stall n h cause)
  | none => if cabin.isSome then boundAccess table n (fun h => .recover n h) else []

/-- The post record after an answered reply, before a vehicle change (R72 to R78): SILENT ends, the heater state, the
report, the age and the call code are taken; at a BOUND post the energy baseline follows the counter and a stall
zeroes the recorded grant. Where one SETPOINT reply does both, R75 and R76 give no order: the sent grant is taken first,
so that R69's claim compares the zeroed grant with the new one. DESIGN CHOICE, log entry 34. -/
def Post.answered (p : Post) (x : Exchange) (r : ReportFields) : Post :=
  let cabin := carriedCabin x p r
  let p1 := (p.sentAnswered x.level r.applied).takeReport (carriedVehicle x p r) cabin r.outside
  let p2 :=
    { p1 with
      heaterState := some r.heater, age := ageAfter p.age cabin, silence := 0, silent := false
      lastCall := if r.call = .none then p.lastCall else r.call
      baseline := if p.state = .bound then some r.energy else p.baseline }
  if p.state = .bound ∧ (replyStall p r cabin).isSome then p2.setRecorded 0 else p2

/-- A reply makes a new vehicle number current (R79). -/
def newVehicleCurrent (p : Post) (vehicle : Nat) : Bool :=
  !p.roundMark && vehicle ≠ 0 && vehicle ≠ p.current.vehicle

/-- A post in OUT takes the sent grant, with what R75 makes of it; a reply that sets it to 0 ends a final setpoint still
owed (R61, R72). -/
def Post.answeredOut (p : Post) (x : Exchange) (r : ReportFields) : Post :=
  let q := p.sentAnswered x.level r.applied
  { q with finalOwed := q.finalOwed && !(x.level.isSome && q.sent = some 0) }

/-- The vehicle change or the attempts that follow a reply (R79). -/
def Bus.afterReport (b : Bus) (table : Vector (Option Handle) 24) (n : Fin 24) (change silentEnded : Bool) : Bus :=
  if change && b.posts[n].state = .bound then b.vehicleChange table n
  else b.trigger (fun q => q = n && (change || silentEnded))

/-- The engine at an answered exchange with an in-service post: the record, then the energy increment, the condition and
the vehicle's access, in that order (R76). Where one SETPOINT reply also brings a vehicle change, R75 and R93 give no order
between the sent grant and the zeroed recorded grant: the sent grant, taken with the record, goes first, as it does before
a stall. DESIGN CHOICE, log entry 34. -/
def Bus.answeredIn (b : Bus) (table : Vector (Option Handle) 24) (x : Exchange) (r : ReportFields) : Bus :=
  let p := b.posts[x.post]
  let b1 := b.modify x.post (fun p => p.answered x r)
  let b2 :=
    if p.state = .bound then
      b1.present (energyAccess table x.post p.baseline r.energy ++
        conditionAccess table x.post p r (carriedCabin x p r))
    else b1
  b2.afterReport table x.post (newVehicleCurrent p (carriedVehicle x p r)) p.silent

/-- The engine at an answered exchange. -/
def Bus.answered (b : Bus) (table : Vector (Option Handle) 24) (x : Exchange) (r : ReportFields) : Bus :=
  if b.posts[x.post].inService then b.answeredIn table x r else b.modify x.post (fun p => p.answeredOut x r)

/-- The exchange in flight completes. -/
def Bus.endExchange (b : Bus) : Bus := { b with exchange := none }

/-- An answered exchange sets CALL for a call code of LEAVING or HELP at a post that is not OUT (R78). -/
def Attention.noteCall (a : Attention) (n : Fin 24) (inService : Bool) (call : CallCode) : Attention :=
  if inService && call ≠ .none then a.setCall n else a

/-- An exchange completes as answered. -/
def State.answeredBy (s : State) (x : Exchange) (r : ReportFields) : State :=
  { s with
    bus := (s.bus.answered s.store.table x r).endExchange
    attention := s.attention.noteCall x.post s.bus.posts[x.post].inService r.call }

/-! ### Unanswered exchanges (R73 to R76) -/

/-- The stalls an unanswered exchange raises at a BOUND post, the age's before the silence's (R74, R76; log entry 28). -/
def unansweredStalls (p : Post) : List StallCause :=
  (if ageSteps p.age none then [.staleReading] else []) ++ (if p.silence = 3 then [.postSilent] else [])

/-- The post record after an unanswered exchange (R73 to R75). -/
def Post.unanswered (p : Post) (x : Exchange) : Post :=
  let p1 := p.sentUnanswered x.level
  let p2 :=
    { p1 with
      age := ageAfter p.age none, silence := min Config.silenceMax (p.silence + 1)
      silent := p.silent || decide (p.silence = 3) }
  if p.silence = 3 ∨ (p.state = .bound ∧ ageSteps p.age none) then p2.setRecorded 0 else p2

/-- The engine at an unanswered exchange; an OUT post has neither age nor silence (R61, R73, R74). -/
def Bus.unanswered (b : Bus) (table : Vector (Option Handle) 24) (x : Exchange) : Bus :=
  let p := b.posts[x.post]
  if p.inService then
    (b.modify x.post (fun p => p.unanswered x)).present
      (if p.state = .bound then
        (unansweredStalls p).flatMap (fun cause => boundAccess table x.post (fun h => .stall x.post h cause))
      else [])
  else b.modify x.post (fun p => p.sentUnanswered x.level)

/-- An exchange completes as unanswered. -/
def State.unansweredExchange (s : State) (x : Exchange) : State :=
  { s with bus := (s.bus.unanswered s.store.table x).endExchange }

/-! ### POST_REPLY and REPLY_TIMEOUT (R68) -/

/-- A frame on the post bus: discarded with no exchange in flight, and else the completion of the exchange, answered by a
good REPORT of the post addressed (R68). -/
def State.postFrame (s : State) (bytes : List Byte) : State :=
  match s.bus.exchange with
  | none => s
  | some x =>
    match parseReport x.post bytes with
    | some r => s.answeredBy x r
    | none => s.unansweredExchange x

/-- POST_REPLY (R68). -/
def execPostReply (bytes : List Byte) (s : State) : Host.Outcome State Fault Refusal :=
  .next (State.finish (s.postFrame bytes))

/-- The reply timeout of the exchange in flight runs out (R68). -/
def State.replyTimesOut (s : State) : State :=
  match s.bus.exchange with
  | none => s
  | some x => s.unansweredExchange x

/-- REPLY_TIMEOUT (R68); with no exchange in flight no timeout runs (log entry 3). -/
def execReplyTimeout (s : State) : Host.Outcome State Fault Refusal := .next (State.finish s.replyTimesOut)

end Sys2Proof.Machine
end

