-- ==== Sys2Proof/Machine/Frames.lean ====
section
/-! DEFINITION. The receiver and the receive buffer of the site link: FRAME_RECEIVED, FRAME_GAP_TIMEOUT, FRAME_TAKEN and
SUPERVISION_EXPIRY (11 sections 12.1, 12.2 and 12.6). -/

namespace Sys2Proof.Machine

/-- The frame of a length byte and the bytes that followed it: request code, tag, payload and check (R164, R180). None
until they have all arrived. -/
def frameOf (len : Byte) (got : List Byte) : Option Frame :=
  match got with
  | code :: tag :: rest =>
    if rest.length = len.toNat + 1 then
      some { code := code, tag := tag, payload := rest.take len.toNat
             good := crc8 (len :: code :: tag :: rest.take len.toNat) = (rest.drop len.toNat).headD 0 }
    else none
  | _ => none

/-- A valid frame restarts the supervision timer and ends autonomy (R164, R176). -/
def State.validFrame (s : State) : State :=
  let l := { s.link with supervision := if s.link.supervisionTime = 0 then none else some 0, autonomy := false }
  if s.link.autonomy then
    { s with link := l, attention := s.attention.setModeChange, planner := s.planner.setReplan }
  else { s with link := l }

/-- A complete frame enters the receive buffer when it is empty and is discarded otherwise (R164). -/
def State.frameComplete (s : State) (f : Frame) : State :=
  if s.link.buffer.isSome then s
  else if f.good then State.validFrame { s with link := { s.link with buffer := some f } }
  else { s with link := { s.link with buffer := some f } }

/-- Sets the receiver. -/
def State.setReceiver (s : State) (r : Receiver) : State := { s with link := { s.link with receiver := r } }

/-- One byte on the receive line (R164). -/
def State.receiveByte (s : State) (b : Byte) : State :=
  match s.link.receiver with
  | .hunting => if b = Config.siteStart then s.setReceiver .length else s
  | .length => if Config.maxPayload < b.toNat then s.setReceiver .hunting else s.setReceiver (.body b [])
  | .body len got =>
    match frameOf len (got ++ [b]) with
    | some f => (s.setReceiver .hunting).frameComplete f
    | none => s.setReceiver (.body len (got ++ [b]))

/-- FRAME_RECEIVED (R164): bytes arrive on the receive line with no gap of more than 20 ms between them. Each frame they
complete enters the receive buffer or is discarded; a frame they leave unfinished stays in the receiver. -/
def execFrameReceived (bytes : List Byte) (s : State) : Host.Outcome State Fault Refusal :=
  .next (State.finish (bytes.foldl State.receiveByte { s with link := { s.link with gap := 0 } }))

/-- A gap of more than 20 ms abandons the frame being received (R164). -/
def Link.gapExpires (l : Link) : Link := { l with receiver := .hunting, gap := 0 }

/-- FRAME_GAP_TIMEOUT (R164). -/
def execFrameGapTimeout (s : State) : Host.Outcome State Fault Refusal :=
  .next { s with link := s.link.gapExpires }

/-- The reply to a frame that is not carried out: CHECK ERROR or BAD REQUEST, with the code and tag as received (R165). -/
def Frame.refusal (f : Frame) (status : Status) : Reply :=
  { code := f.code, tag := f.tag, status := status, clamped := false, payload := [] }

/-- The port answers a frame that it does not carry out. -/
def State.refuseFrame (s : State) (f : Frame) (status : Status) : State :=
  { s with link := { s.link with sent := s.link.sent ++ [f.refusal status] } }

/-- The receive buffer is emptied. -/
def State.emptyBuffer (s : State) : State := { s with link := { s.link with buffer := none } }

/-- The port takes the buffered frame (R165, R166): a frame with a failed check is answered CHECK ERROR, one that is no
request BAD REQUEST. A change the port would post while both posting slots are full stays in the buffer. Any other
request comes to the port: a posted change is answered at once, and a request that is not posted is carried out or waits
for the changes ahead of it. -/
def State.takeFrame (s : State) (f : Frame) : State :=
  if !f.good then s.emptyBuffer.refuseFrame f .checkError
  else
    match parseRequest f.code f.payload with
    | none => s.emptyBuffer.refuseFrame f .badRequest
    | some r => if s.link.blocked r then s else s.emptyBuffer.takeRequest r f.tag

/-- FRAME_TAKEN (R165 to R168): the port takes the buffered frame while no request is in progress. -/
def execFrameTaken (s : State) : Host.Outcome State Fault Refusal :=
  .next
    (match s.link.buffer, s.link.inProgress with
    | some f, none => (s.takeFrame f).finish
    | _, _ => s)

/-- The supervision timer expires and the port enters autonomy (R176). -/
def State.supervisionExpires (s : State) : State :=
  if s.link.supervision.isSome && !s.link.autonomy then
    { s with
      link := { s.link with supervision := none, autonomy := true }
      attention := s.attention.setModeChange
      planner := s.planner.setReplan }
  else s

/-- SUPERVISION_EXPIRY (R176); a timer that is stopped does not expire (log entry 3). -/
def execSupervisionExpiry (s : State) : Host.Outcome State Fault Refusal := .next (State.finish s.supervisionExpires)

end Sys2Proof.Machine
end

