-- ==== Sys2Proof/Machine/Lines.lean ====
section
/-! DEFINITION. The input lines and the restore timer: PLUG_SENSE_CHANGE, PLUG_FILTER_EXPIRY, SITE_LINE_CHANGE,
SITE_LINE_FILTER_EXPIRY, RESTORE_TIMER_EXPIRY and METER_PULSE (R65 to R67, R144, R146, R149). -/

namespace Sys2Proof.Machine

/-- PLUG_SENSE_CHANGE (R65): the line takes the level, and its filter timer starts or stops. -/
def execPlugSenseChange (post : Fin 24) (level : Level) (s : State) : Host.Outcome State Fault Refusal :=
  .next { s with plug := s.plug.set post (s.plug[post].change level) }

/-- A plug-in event at a post (R66). -/
def State.plugInEvent (s : State) (n : Fin 24) : State :=
  if s.bus.posts[n].inService ∧ s.bus.posts[n].state = .empty then
    { s with bus := s.bus.plugIn n, attention := s.attention.setPluggedIn n }
  else s

/-- A plug-out event at a post (R67); a binding attempt in flight there notes it (R90). -/
def State.plugOutEvent (s : State) (n : Fin 24) : State :=
  if s.bus.posts[n].inService ∧ (s.bus.posts[n].state = .occupied ∨ s.bus.posts[n].state = .bound) then
    { s with
      bus := s.bus.plugOut s.store.table n, attention := s.attention.setPluggedOut n, arbiter := s.arbiter.notePlugOut n }
  else s

/-- The event a new filtered level gives (R65). -/
def State.plugEvent (s : State) (n : Fin 24) : Level → State
  | .high => s.plugInEvent n
  | .low => s.plugOutEvent n

/-- A plug filter's timer has run for 2 s (R65): the filtered level takes the line's, and the engine has the event. -/
def State.plugFilterExpires (s : State) (n : Fin 24) : State :=
  if s.plug[n].timer.isSome then
    State.plugEvent { s with plug := s.plug.set n s.plug[n].expire } n s.plug[n].line
  else s

/-- PLUG_FILTER_EXPIRY (R65); an idle timer does not expire (log entry 3). -/
def execPlugFilterExpiry (post : Fin 24) (s : State) : Host.Outcome State Fault Refusal :=
  .next (State.finish (s.plugFilterExpires post))

/-- The filter of a site line (R146). -/
def Supply.filter (x : Supply) : SiteLine → LineFilter
  | .limit => x.limit
  | .shed => x.shed

/-- Sets the filter of a site line. -/
def Supply.setFilter (x : Supply) (f : LineFilter) : SiteLine → Supply
  | .limit => { x with limit := f }
  | .shed => { x with shed := f }

/-- SITE_LINE_CHANGE (R146). -/
def execSiteLineChange (line : SiteLine) (level : Level) (s : State) : Host.Outcome State Fault Refusal :=
  .next { s with supply := s.supply.setFilter ((s.supply.filter line).change level) line }

/-- A site line's filter timer has run for 2 s (R146): the filtered level changes and the calls are judged anew. -/
def State.siteFilterExpires (s : State) (line : SiteLine) : State :=
  if (s.supply.filter line).timer.isSome then s.judgeCalls (s.supply.setFilter (s.supply.filter line).expire line) else s

/-- SITE_LINE_FILTER_EXPIRY (R146, R148). -/
def execSiteLineFilterExpiry (line : SiteLine) (s : State) : Host.Outcome State Fault Refusal :=
  .next (State.finish (s.siteFilterExpires line))

/-- RESTORE_TIMER_EXPIRY (R148, R149). -/
def execRestoreTimerExpiry (s : State) : Host.Outcome State Fault Refusal := .next (State.finish s.restoreExpires)

/-- METER_PULSE (R144): a transition of the METER input in the direction given. -/
def execMeterPulse (edge : Edge) (s : State) : Host.Outcome State Fault Refusal := .next (s.meterTransition edge)

end Sys2Proof.Machine
end

