-- ==== Sys2Proof/Machine/Tick.lean ====
section
/-! DEFINITION. The passing of time: what one millisecond of the reference oscillator does while no command waits. Every
timer counts, and one that has reached its time expires, with the effect of its row of the table (R46). DESIGN CHOICE,
log entry 1. -/

namespace Sys2Proof.Machine

/-- A filter timer that runs counts a millisecond. -/
def LineFilter.run (f : LineFilter) : LineFilter := { f with timer := f.timer.map (· + 1) }

/-- The receiver's gap counts while a frame is being received (R164), and the supervision timer while the port is not in
autonomy (R176). -/
def Link.runTimers (l : Link) : Link :=
  { l with
    gap := if l.receiver = .hunting then l.gap else l.gap + 1
    supervision := if l.autonomy then l.supervision else l.supervision.map (· + 1) }

/-- The reply timeout of an exchange in flight counts (R68). -/
def Bus.runTimers (b : Bus) : Bus := { b with exchange := b.exchange.map (fun x => { x with timer := x.timer + 1 }) }

/-- The meter interval, the line filters and the restore timer count (R145, R146, R149). -/
def Supply.runTimers (x : Supply) : Supply :=
  { x with
    interval := x.interval + 1, limit := x.limit.run, shed := x.shed.run, restore := x.restore.map (· + 1) }

/-- Every timer of the part counts a millisecond. -/
def State.runTimers (s : State) : State :=
  { s with
    clock := { s.clock with prescaler := s.clock.prescaler + 1 }
    link := s.link.runTimers
    bus := s.bus.runTimers
    plug := Vector.ofFn (fun n => s.plug[n].run)
    planner := { s.planner with timer := s.planner.timer + 1 }
    supply := s.supply.runTimers }

/-- A timer that runs has reached a count. -/
def reached (timer : Option Nat) (count : Nat) : Bool := timer.any (fun c => count ≤ c)

/-- A gap of more than 20 ms (R164). -/
def State.tickGap (s : State) : State :=
  if Config.frameGapMs < s.link.gap then { s with link := s.link.gapExpires } else s

/-- The reply timeout of 25 ms (R68). -/
def State.tickReply (s : State) : State :=
  if reached (s.bus.exchange.map Exchange.timer) Config.replyTimeoutMs then s.replyTimesOut.finish else s

/-- A plug filter that has run for 2 s (R65). -/
def State.tickPlug (s : State) (n : Fin 24) : State :=
  if reached s.plug[n].timer Config.filterMs then (s.plugFilterExpires n).finish else s

/-- A site line filter that has run for 2 s (R146). -/
def State.tickLine (s : State) (line : SiteLine) : State :=
  if reached (s.supply.filter line).timer Config.filterMs then (s.siteFilterExpires line).finish else s

/-- The restore timer at the restore delay (R149). -/
def State.tickRestore (s : State) : State :=
  if reached s.supply.restore (s.site.restoreDelay * Config.msPerSecond) then s.restoreExpires.finish else s

/-- The supervision timer at the supervision time (R176). -/
def State.tickSupervision (s : State) : State :=
  if reached s.link.supervision (s.link.supervisionTime * Config.msPerSecond) then s.supervisionExpires.finish else s

/-- A second boundary (R45, R46). -/
def State.tickSecond (s : State) : State :=
  if Config.msPerSecond ≤ s.clock.prescaler then { s with clock := s.clock.tick } else s

/-- The round timer has reached the round period (R116). -/
def State.roundTimerDue (s : State) : Bool := s.site.roundPeriod * Config.msPerSecond ≤ s.planner.timer

/-- The round timer's expiry (R116 to R118), when it has come due. A round that another event of the same moment started
makes it an overrun (R117). -/
def State.tickRound (s : State) (due : Bool) : State := if due then s.roundTimerExpires.finish else s

/-- One millisecond passes (log entry 1): the timers count, and those that are due expire in a fixed order. -/
def State.tick (s : State) : State :=
  let s0 := s.runTimers
  let s2 := allPosts.foldl State.tickPlug s0.tickGap.tickReply
  ((((s2.tickLine .limit).tickLine .shed).tickRestore).tickSupervision).tickSecond.tickRound s0.roundTimerDue

end Sys2Proof.Machine
end

