-- ==== Sys2Proof/Machine/Dispatch.lean ====
section
/-! DEFINITION. The dispatch of a command to its meaning: one arm for each constructor of Instr. -/

namespace Sys2Proof.Machine

/-- The effect of a command on everything but the queue. -/
def exec (i : Instr) (s : State) : Host.Outcome State Fault Refusal :=
  match i with
  | .powerOn => Sys2Proof.Machine.execPowerOn s
  | .restart => Sys2Proof.Machine.execRestart s
  | .secondBoundary => Sys2Proof.Machine.execSecondBoundary s
  | .frameReceived bytes => Sys2Proof.Machine.execFrameReceived bytes s
  | .frameGapTimeout => Sys2Proof.Machine.execFrameGapTimeout s
  | .frameTaken => Sys2Proof.Machine.execFrameTaken s
  | .place tag f => Sys2Proof.Machine.execPlace tag f s
  | .amend tag f => Sys2Proof.Machine.execAmend tag f s
  | .withdraw tag h => Sys2Proof.Machine.execWithdraw tag h s
  | .release tag h => Sys2Proof.Machine.execRelease tag h s
  | .lookup tag h => Sys2Proof.Machine.execLookup tag h s
  | .find tag vehicle => Sys2Proof.Machine.execFind tag vehicle s
  | .walkStart tag form => Sys2Proof.Machine.execWalkStart tag form s
  | .walkNext tag => Sys2Proof.Machine.execWalkNext tag s
  | .setSite tag f => Sys2Proof.Machine.execSetSite tag f s
  | .readSite tag => Sys2Proof.Machine.execReadSite tag s
  | .setLink tag posting time => Sys2Proof.Machine.execSetLink tag posting time s
  | .setPost tag f => Sys2Proof.Machine.execSetPost tag f s
  | .readPost tag post => Sys2Proof.Machine.execReadPost tag post s
  | .setClass tag f => Sys2Proof.Machine.execSetClass tag f s
  | .clearClass tag cls => Sys2Proof.Machine.execClearClass tag cls s
  | .readClass tag cls => Sys2Proof.Machine.execReadClass tag cls s
  | .setTime tag minute second => Sys2Proof.Machine.execSetTime tag minute second s
  | .readTime tag => Sys2Proof.Machine.execReadTime tag s
  | .setMode tag mode => Sys2Proof.Machine.execSetMode tag mode s
  | .replan tag => Sys2Proof.Machine.execReplan tag s
  | .readAttention tag source => Sys2Proof.Machine.execReadAttention tag source s
  | .clearAttention tag source flags => Sys2Proof.Machine.execClearAttention tag source flags s
  | .setMasks tag masks groups => Sys2Proof.Machine.execSetMasks tag masks groups s
  | .supervisionExpiry => Sys2Proof.Machine.execSupervisionExpiry s
  | .createAccess => Sys2Proof.Machine.execCreateAccess s
  | .amendAccess => Sys2Proof.Machine.execAmendAccess s
  | .withdrawAccess => Sys2Proof.Machine.execWithdrawAccess s
  | .freeAccess => Sys2Proof.Machine.execFreeAccess s
  | .readAccess => Sys2Proof.Machine.execReadAccess s
  | .indexRead => Sys2Proof.Machine.execIndexRead s
  | .bindAccess => Sys2Proof.Machine.execBindAccess s
  | .unbindAccess => Sys2Proof.Machine.execUnbindAccess s
  | .stallEntry => Sys2Proof.Machine.execStallEntry s
  | .stallCauseReplacement => Sys2Proof.Machine.execStallCauseReplacement s
  | .recovery => Sys2Proof.Machine.execRecovery s
  | .addEnergy => Sys2Proof.Machine.execAddEnergy s
  | .zeroGrantOnShed => Sys2Proof.Machine.execZeroGrantOnShed s
  | .roundTimerExpiry => Sys2Proof.Machine.execRoundTimerExpiry s
  | .snapshotRead => Sys2Proof.Machine.execSnapshotRead s
  | .sweepRead => Sys2Proof.Machine.execSweepRead s
  | .roundCompute => Sys2Proof.Machine.execRoundCompute s
  | .writeBack => Sys2Proof.Machine.execWriteBack s
  | .exchangeStart => Sys2Proof.Machine.execExchangeStart s
  | .postReply bytes => Sys2Proof.Machine.execPostReply bytes s
  | .replyTimeout => Sys2Proof.Machine.execReplyTimeout s
  | .plugSenseChange post level => Sys2Proof.Machine.execPlugSenseChange post level s
  | .plugFilterExpiry post => Sys2Proof.Machine.execPlugFilterExpiry post s
  | .siteLineChange line level => Sys2Proof.Machine.execSiteLineChange line level s
  | .siteLineFilterExpiry line => Sys2Proof.Machine.execSiteLineFilterExpiry line s
  | .restoreTimerExpiry => Sys2Proof.Machine.execRestoreTimerExpiry s
  | .meterPulse edge => Sys2Proof.Machine.execMeterPulse edge s

end Sys2Proof.Machine
end

