-- ==== Sys2Proof/Safety.lean ====
section
/-! DEFINITION. The terms in which claims about the part are stated: when the port carries a request out, what a reply
leaves, and what a sound state is. -/

namespace Sys2Proof.Machine

/-! ### Requests at the port -/

/-- The port carries a request that is not posted out as it comes: none is in progress, no frame is in the buffer, and no
posted change waits (R166, R167; log entry 4). -/
def State.ready (s : State) : Prop := s.link.posting = [] ∧ s.link.inProgress = none ∧ s.link.buffer = none

/-- The port posts this change as it comes: postable, naming the slot of no waiting change, with a posting slot free
(R166, R168; log entry 4). -/
def State.postable (s : State) (c : Change) : Prop :=
  s.link.inProgress = none ∧ s.link.buffer = none ∧ s.link.postingEnabled = true ∧ s.link.posting.length < 2 ∧
    ∀ w ∈ s.link.posting, w.handle.slot ≠ c.handle.slot

/-- The port is ready, and posting is disabled (R168). -/
def State.unposted (s : State) : Prop := s.ready ∧ s.link.postingEnabled = false

/-- The row of a request. -/
def Request.command (tag : Byte) : Request → Instr
  | .place f => .place tag f
  | .change (.amend f) => .amend tag f
  | .change (.withdraw h) => .withdraw tag h
  | .change (.release h) => .release tag h
  | .lookup h => .lookup tag h
  | .find v => .find tag v
  | .walkStart form => .walkStart tag form
  | .walkNext => .walkNext tag
  | .setSite f => .setSite tag f
  | .readSite => .readSite tag
  | .setLink posting time => .setLink tag posting time
  | .setPost f => .setPost tag f
  | .readPost post => .readPost tag post
  | .setClass f => .setClass tag f
  | .clearClass cls => .clearClass tag cls
  | .readClass cls => .readClass tag cls
  | .setTime minute second => .setTime tag minute second
  | .readTime => .readTime tag
  | .setMode mode => .setMode tag mode
  | .replan => .replan tag
  | .readAttention source => .readAttention tag source
  | .clearAttention source flags => .clearAttention tag source flags
  | .setMasks masks groups => .setMasks tag masks groups

/-- The state once a request has been answered: the reply is sent and nothing else has changed. -/
def State.replied (s : State) (r : Request) (tag : Byte) (status : Status) (clamped : Bool) (payload : List Byte) :
    State :=
  { s with
    link := { s.link with
      inProgress := none
      sent := s.link.sent ++
        [{ code := r.code, tag := tag, status := status, clamped := clamped, payload := payload }] } }

/-- The state once a change has been posted: answered POSTED with its handle, and last in the posting slots (R168). -/
def State.postedAs (s : State) (c : Change) (tag : Byte) (clamped : Bool) : State :=
  { s with
    link := { s.link with
      inProgress := none
      posting := s.link.posting ++ [c]
      sent := s.link.sent ++
        [{ code := c.code, tag := tag, status := .posted, clamped := clamped, payload := c.handle.bytes }] } }

/-- The state once a request has presented its store access: it is in progress and nothing else has changed. -/
def State.inAccess (s : State) (r : Request) (tag : Byte) (a : LinkAccess) : State :=
  { s with link := { s.link with inProgress := some { request := r, tag := tag, stage := .access a } } }

/-- A LINK access in flight belongs to a request in progress, and no posted change waits (R167). -/
def State.serves (s : State) (a : LinkAccess) (r : Request) (tag : Byte) : Prop :=
  s.arbiter.inFlight = some (.link a) ∧ s.link.posting = [] ∧
    s.link.inProgress = some { request := r, tag := tag, stage := .access a }

/-- A LINK access in flight drains the oldest posted change (R169). -/
def State.drains (s : State) (c : Change) (rest : List Change) : Prop :=
  s.arbiter.inFlight = some (.link c.access) ∧ s.link.posting = c :: rest

/-- The state once a posted change has been applied: its slot is freed (R169). -/
def State.drained (s : State) (rest : List Change) : State := { s with link := { s.link with posting := rest } }

/-- The state once a posted change has been dropped: its slot is freed, CHANGE DROPPED is set and the last dropped change
replaced (R157, R169). -/
def State.droppedChange (s : State) (c : Change) (rest : List Change) (reason : Status) : State :=
  { s with
    link := { s.link with posting := rest }
    attention := { s.attention with changeDropped := true, dropped := some { change := c, reason := reason } } }

/-- How the LINK access in flight ends, from the state its effect leaves, with a status, the clamped indicator and a
payload: the request in progress is answered (R167), or, for a posted change, its slot is freed and a refusal drops it
(R169). -/
def State.ends (s : State) (a : LinkAccess) (k : State → Status → Bool → List Byte → State) : Prop :=
  (∃ r tag, s.serves a r tag ∧ k = fun t x c p => t.replied r tag x c p) ∨
    ∃ c rest, s.drains c rest ∧ c.access = a ∧
      k = fun t x _ _ => if x = .done then t.drained rest else t.droppedChange c rest x

/-! ### The order bound at a post -/

/-- The post's entry names the handle of a live order, whose record reads as `o` (R36). -/
def State.boundOrder (s : State) (n : Fin 24) (h : Handle) (o : Order) : Prop :=
  s.store.table[n] = some h ∧ s.store.verdict h = .live ∧ s.store.readOrder h.slot = some o

/-- The target of a POSTS access no longer stands (R36). -/
def State.staleTarget (s : State) (n : Fin 24) (h : Handle) : Prop :=
  ¬ (s.store.table[n] = some h ∧ s.store.verdict h = .live)

/-! ### The order store -/

/-- The lowest-numbered slot, from a bound on, that is not FREE (R171). -/
def Store.lowestOccupied (st : Store) (bound : Nat) (n : Fin 64) : Prop :=
  bound ≤ n.val ∧ (st.dir n).occupancy ≠ .free ∧ ∀ m : Fin 64, bound ≤ m.val → m < n → (st.dir m).occupancy = .free

/-- The vehicle index holds one list a vehicle number, none of them empty (R31, R32). -/
def Store.indexSound (st : Store) : Prop :=
  st.index.Pairwise (fun a b => a.vehicle < b.vehicle) ∧ ∀ l ∈ st.index, l.entries ≠ []

/-- The directory entry of every slot that holds a record carries the copies the store keeps of it (R28). -/
def Store.directorySound (st : Store) : Prop :=
  ∀ (n : Fin 64) (r : Stored), st.slots[n].record = some r →
    (st.dir n).state = some r.order.state ∧ (st.dir n).vehicle = some r.order.vehicle ∧
      (st.dir n).boundPost = r.order.boundPost

/-! ### Sound states -/

/-- The depot clock's counts lie in their ranges (R45). -/
def Clock.sound (c : Clock) : Prop := c.second ≤ 59 ∧ c.minute ≤ 10079

/-- The site settings lie in the ranges of R173. -/
def SiteSettings.sound (x : SiteSettings) : Prop :=
  (10 ≤ x.siteLimit ∧ x.siteLimit ≤ 2000) ∧ x.limitedLevel ≤ 2000 ∧ x.ceiling ≤ 500 ∧ x.autoCeiling ≤ 500 ∧
    (1 ≤ x.rampLimit ∧ x.rampLimit ≤ 500) ∧ (1 ≤ x.meterConstant ∧ x.meterConstant ≤ 100) ∧ x.restoreDelay ≤ 900 ∧
    (10 ≤ x.roundPeriod ∧ x.roundPeriod ≤ 120) ∧ x.startLead ≤ 60 ∧ x.grace ≤ 60 ∧ x.departWindow ≤ 120 ∧
    (60 ≤ x.horizon ∧ x.horizon ≤ 8640) ∧ (-500 ≤ x.fallback ∧ x.fallback ≤ 600)

/-- The supply monitor: the pulse counter in its range (R144), and the restore timer running exactly in RESTORING
(R149). -/
def Supply.sound (x : Supply) : Prop := x.counter ≤ 4095 ∧ (x.restore.isSome = true ↔ x.mode = .restoring)

/-- A supervision time is 0 or lies in its range (R175). -/
def supervisionTimeSound (t : Nat) : Prop := t = 0 ∨ (10 ≤ t ∧ t ≤ 600)

/-- The site link port: at most two posted changes wait, the supervision time is one that SET LINK stores (R175), and a
request in progress waits for the posted changes exactly while there are any (the conditions of R166). -/
def Link.sound (l : Link) : Prop :=
  (l.posting.length ≤ 2 ∧ supervisionTimeSound l.supervisionTime) ∧
    ∀ p ∈ l.inProgress, (p.stage = .taken ↔ l.posting ≠ [])

/-- A class entry's parameters lie in the ranges of R98. -/
def ClassEntry.sound (e : ClassEntry) : Prop :=
  ∀ p ∈ e.params,
    (10 ≤ p.c ∧ p.c ≤ 200) ∧ (5 ≤ p.g ∧ p.g ≤ 200) ∧ (500 ≤ p.pmax ∧ p.pmax ≤ 10000 ∧ p.pmax % 100 = 0) ∧
      p.pmin ≤ p.pmax ∧ (16 ≤ p.h ∧ p.h ≤ 64) ∧ p.m ≤ 30

/-- A power that a post is told or applies: 0 to 10000 W in steps of 100 W (04 section 5.1). -/
def powerSound (w : Nat) : Prop := w ≤ 10000 ∧ w % 100 = 0

/-- A stored temperature reading lies in its range, −50.0 to 60.0 °C (R71). -/
def readingSound (t : Int) : Prop := -500 ≤ t ∧ t ≤ 600

/-- A current report: the vehicle number and the readings in their ranges (R72). -/
def Report.sound (r : Report) : Prop :=
  r.vehicle ≤ 65534 ∧ (∀ t ∈ r.cabin, readingSound t) ∧ ∀ t ∈ r.outside, readingSound t

/-- A pending report: what it holds in the same ranges (R80). -/
def PendingReport.sound (r : PendingReport) : Prop :=
  (∀ v ∈ r.vehicle, v ≤ 65534) ∧ (∀ t ∈ r.cabin, readingSound t) ∧ ∀ o ∈ r.outside, ∀ t ∈ o, readingSound t

/-- The recorded grant, the sent grant, the energy baseline and the two reports of a post record lie in the ranges of the
table of 04 section 5.1. -/
def Post.valuesSound (p : Post) : Prop :=
  powerSound p.recorded ∧ (∀ w ∈ p.sent, powerSound w) ∧ (∀ e ∈ p.baseline, e ≤ 65535) ∧ p.current.sound ∧ p.held.sound

/-- The level of the SETPOINT in flight is one of 0 to 100 (R68). -/
def Bus.levelSound (b : Bus) : Prop := ∀ x ∈ b.exchange, ∀ l ∈ x.level, l ≤ 100

/-- A post record: the state is OUT exactly when the service is (R64), the reading age and the silence count lie in their
ranges (R73, R74), a binding condition is recorded at an OCCUPIED post alone (R83), the feed limit is a multiple of 100 W
in its range (R59), and so are its grants, its baseline and its reports. -/
def Post.sound (p : Post) : Prop :=
  (p.state = .out ↔ p.inService = false) ∧ p.age ≤ 3 ∧ p.silence ≤ 4 ∧ (p.condition ≠ .none → p.state = .occupied) ∧
    (1000 ≤ p.feedLimit ∧ p.feedLimit ≤ 10000 ∧ p.feedLimit % 100 = 0) ∧ p.valuesSound

/-- The clock, the site and link settings, the meter counter, the posting slots, the class parameters, the post records and
the level in flight on the post bus lie where the spec says they stay. -/
def State.sound (s : State) : Prop :=
  s.clock.sound ∧ s.site.sound ∧ s.supply.sound ∧ s.link.sound ∧ (∀ c : Fin 16, s.classes[c].sound) ∧
    (∀ n : Fin 24, s.bus.posts[n].sound) ∧ s.bus.levelSound

/-- A post's recorded grant is zero unless the post is in service, BOUND and not SILENT and the site mode is not SHED
(R81). -/
def State.grantsSound (s : State) : Prop :=
  ∀ n : Fin 24, s.bus.posts[n].recorded ≠ 0 →
    s.bus.posts[n].inService = true ∧ s.bus.posts[n].state = .bound ∧ s.bus.posts[n].silent = false ∧
      s.supply.mode ≠ .shed

end Sys2Proof.Machine
end

