-- ==== Sys2Proof/Certificates/Slice0/Obligations.lean ====
section
/-! DEFINITION. The statements for the provers, one definition each, in the order of OBLIGATIONS.json. Each docstring
names the rules of spec/ it rests on. -/

open Sys2Proof Sys2Proof.Machine

/-- A step runs the command at the front of the queue. For every command c and state s, a step of s with c at the front
of its queue is exec of c on s with the queue's rest. Which command comes next is the queue's, the row's own
convention. -/
def Obligations.StepTakesFront : Prop :=
  ∀ (s : State) (c : Instr) (rest : List Instr),
    step { s with pending := c :: rest } = exec c { s with pending := rest }

/-- Every command has a next state; an empty queue lets a millisecond pass, in which every timer counts and the due ones
expire (model's choice, log entry 1). No command faults or is refused in any state: exec answers a next state and
leaves the queue as it is. A step on an empty queue answers a next state whose queue is empty, whose site settings
are unchanged and whose clock has counted one millisecond, with a second boundary at the thousandth. In that
millisecond every timer counts by one: the prescaler, the gap while a frame is being received, the supervision timer
outside autonomy, the reply timeout of an exchange in flight, the filter timers that run, the meter interval, the
restore timer and the round timer. Then, in this order, each timer that is due has the effect of its row, and one
that is not changes nothing: a gap above 20 ms, a reply timeout at 25 ms, the plug filters at 2 s in ascending post
number, the LIMIT and the SHED filter at 2 s, the restore timer at the restore delay, the supervision timer at the
supervision time, the prescaler at a second, and last the round timer at the round period, which is judged by its
count as the millisecond begins. That an empty queue passes a millisecond, the millisecond itself and the order of
the expiries are the model's choice, log entry 1. Rules: R45, R46, R65, R68, R116, R117, R145, R146, R149, R164,
R176. The model's own choices it rests on: log entry 1. -/
def Obligations.EveryStepAnswers : Prop :=
  (∀ (c : Instr) (s : State), ∃ t, exec c s = .next t ∧ t.pending = s.pending) ∧
  (∀ s : State, ∃ t, step { s with pending := [] } = .next t ∧ t.pending = [] ∧
     t.site = s.site ∧
     t.clock =
       if s.clock.prescaler + 1 < 1000 then { s.clock with prescaler := s.clock.prescaler + 1 } else s.clock.tick) ∧
  (∀ (s t0 : State) (plug : Vector LineFilter 24),
     (∀ n : Fin 24, plug[n] = { s.plug[n] with timer := s.plug[n].timer.map (· + 1) }) →
     t0 = { s with
       clock := { s.clock with prescaler := s.clock.prescaler + 1 }
       link := { s.link with
         gap := if s.link.receiver = .hunting then s.link.gap else s.link.gap + 1
         supervision := if s.link.autonomy then s.link.supervision else s.link.supervision.map (· + 1) }
       bus := { s.bus with exchange := s.bus.exchange.map (fun x => { x with timer := x.timer + 1 }) }
       plug := plug
       planner := { s.planner with timer := s.planner.timer + 1 }
       supply := { s.supply with
         interval := s.supply.interval + 1
         limit := { s.supply.limit with timer := s.supply.limit.timer.map (· + 1) }
         shed := { s.supply.shed with timer := s.supply.shed.timer.map (· + 1) }
         restore := s.supply.restore.map (· + 1) }
       pending := [] } →
     ∃ (t1 t2 t3 t4 t5 t6 t7 : State) (f : Nat → State),
       (20 < t0.link.gap → exec .frameGapTimeout t0 = .next t1) ∧ (t0.link.gap ≤ 20 → t1 = t0) ∧
       ((∃ x ∈ t1.bus.exchange, 25 ≤ x.timer) → exec .replyTimeout t1 = .next t2) ∧
       ((∀ x ∈ t1.bus.exchange, x.timer < 25) → t2 = t1) ∧
       f 0 = t2 ∧
       (∀ n : Fin 24,
         ((∃ k ∈ (f n).plug[n].timer, 2000 ≤ k) → exec (.plugFilterExpiry n) (f n) = .next (f (n + 1))) ∧
         ((∀ k ∈ (f n).plug[n].timer, k < 2000) → f (n + 1) = f n)) ∧
       ((∃ k ∈ (f 24).supply.limit.timer, 2000 ≤ k) → exec (.siteLineFilterExpiry .limit) (f 24) = .next t3) ∧
       ((∀ k ∈ (f 24).supply.limit.timer, k < 2000) → t3 = f 24) ∧
       ((∃ k ∈ t3.supply.shed.timer, 2000 ≤ k) → exec (.siteLineFilterExpiry .shed) t3 = .next t4) ∧
       ((∀ k ∈ t3.supply.shed.timer, k < 2000) → t4 = t3) ∧
       ((∃ k ∈ t4.supply.restore, t4.site.restoreDelay * 1000 ≤ k) → exec .restoreTimerExpiry t4 = .next t5) ∧
       ((∀ k ∈ t4.supply.restore, k < t4.site.restoreDelay * 1000) → t5 = t4) ∧
       ((∃ k ∈ t5.link.supervision, t5.link.supervisionTime * 1000 ≤ k) → exec .supervisionExpiry t5 = .next t6) ∧
       ((∀ k ∈ t5.link.supervision, k < t5.link.supervisionTime * 1000) → t6 = t5) ∧
       (1000 ≤ t6.clock.prescaler → exec .secondBoundary t6 = .next t7) ∧ (t6.clock.prescaler < 1000 → t7 = t6) ∧
       (s.site.roundPeriod * 1000 ≤ s.planner.timer + 1 →
         step { s with pending := [] } = exec .roundTimerExpiry t7) ∧
       (s.planner.timer + 1 < s.site.roundPeriod * 1000 → step { s with pending := [] } = .next t7))

/-- The values of power-on, and that POWER_ON gives them. The state after reset holds the values the spec gives
power-on: clock at minute 0 and not set, every slot FREE with generation 0, no vehicle list, no binding, the
arbiter's pointer at PLAN, every post OUT with its default configuration, sent grant unknown and no claim, the
rotation pointer at post 23, every class undefined, no round, site mode NORMAL, the default site settings, posting
enabled, supervision off, all masks closed. POWER_ON gives every block those values from any state, but that the
input pins keep their levels: every filtered level is low and a line that is high has its filter timer started.
Rules: R43, R58, R82, R103, R128, R155, R163, R173, R177. The model's own choices it rests on: log entries 7 and 8. -/
def Obligations.PowerOnValues : Prop :=
  (State.reset.clock = { prescaler := 0, second := 0, minute := 0, isSet := false } ∧
   (∀ n : Fin 64, (State.reset.store.dir n).generation = 0 ∧ (State.reset.store.dir n).occupancy = .free) ∧
   State.reset.store.index = [] ∧ (∀ p : Fin 24, State.reset.store.table[p] = none) ∧
   State.reset.arbiter = { pointer := .plan, inFlight := none } ∧
   (∀ p : Fin 24, State.reset.bus.posts[p].inService = false ∧ State.reset.bus.posts[p].heater = .continuous ∧
     State.reset.bus.posts[p].feedLimit = 7000 ∧ State.reset.bus.posts[p].pollMode = .latent ∧
     State.reset.bus.posts[p].state = .out ∧ State.reset.bus.posts[p].recorded = 0 ∧
     State.reset.bus.posts[p].sent = none ∧ State.reset.bus.posts[p].claim = false) ∧
   State.reset.bus.rotation = 23 ∧ State.reset.bus.exchange = none ∧
   (∀ c : Fin 16, State.reset.classes[c] = { params := none, users := [] }) ∧
   State.reset.planner = { timer := 0, replan := false, round := none, ranking := [] } ∧
   State.reset.supply.mode = .normal ∧ State.reset.supply.forced = .none ∧ State.reset.supply.counter = 0 ∧
   State.reset.site =
     { siteLimit := 200, limitedLevel := 100, ceiling := 120, autoCeiling := 40, rampLimit := 30, meterConstant := 10
       meterEdge := .rising, restoreDelay := 180, roundPeriod := 30, startLead := 15, grace := 20, departWindow := 30
       horizon := 720, fallback := -200 } ∧
   State.reset.link.postingEnabled = true ∧ State.reset.link.supervisionTime = 0 ∧ State.reset.link.autonomy = false ∧
   State.reset.link.posting = [] ∧ State.reset.link.walk = .inactive ∧ State.reset.link.resetCause = .powerOn ∧
   State.reset.attention.masks = 0 ∧ State.reset.attention.groups = 0 ∧ State.reset.pending = []) ∧
  (∀ s : State, ∃ t, exec .powerOn s = .next t ∧
     t.clock = State.reset.clock ∧ t.store = State.reset.store ∧ t.arbiter = State.reset.arbiter ∧
     t.link = State.reset.link ∧ t.bus = State.reset.bus ∧ t.classes = State.reset.classes ∧
     t.planner = State.reset.planner ∧ t.site = State.reset.site ∧ t.attention = State.reset.attention ∧
     t.supply = { State.reset.supply with limit := t.supply.limit, shed := t.supply.shed } ∧
     (∀ p : Fin 24, t.plug[p].filtered = .low ∧ t.plug[p].line = s.plug[p].line ∧
       t.plug[p].timer = if s.plug[p].line = .high then some 0 else none) ∧
     (t.supply.limit.filtered = .low ∧ t.supply.limit.line = s.supply.limit.line ∧
       t.supply.limit.timer = if s.supply.limit.line = .high then some 0 else none) ∧
     (t.supply.shed.filtered = .low ∧ t.supply.shed.line = s.supply.shed.line ∧
       t.supply.shed.timer = if s.supply.shed.line = .high then some 0 else none))

/-- RESTART frees every slot and keeps the configuration. RESTART keeps the clock, the site settings, the class
parameters, the post configuration, the forced mode, the link options, the masks and the enables. It frees every
slot, advancing by one modulo 256 the generation of each that was not FREE and leaving it no record, no DAMAGED
mark, no state, vehicle or bound post; it empties the index, the table and the engine's list, abandons the access
and the exchange in flight, the round and the request in progress, makes every filtered plug and site level low with
its timer running from 0 when its line is high and idle when it is low, sets the site mode from the forced mode,
every in-service post EMPTY with its claim set, and the reset cause to RESTART. Rules: R23, R44, R58, R65, R82,
R103, R128, R146, R155, R163, R177. The model's own choices it rests on: log entries 7 and 8. -/
def Obligations.RestartKeepsConfiguration : Prop :=
  ∀ s : State, ∃ t, exec .restart s = .next t ∧
    t.clock = s.clock ∧ t.site = s.site ∧ t.pending = s.pending ∧
    (∀ c : Fin 16, t.classes[c] = { params := s.classes[c].params, users := [] }) ∧
    (∀ n : Fin 64, t.store.slots[n] =
      { dir :=
          { generation :=
              if (s.store.dir n).occupancy = .free then (s.store.dir n).generation
              else ((s.store.dir n).generation + 1) % 256
            occupancy := .free, damaged := false, state := none, vehicle := none, boundPost := none }
        record := none }) ∧
    t.store.index = [] ∧ (∀ p : Fin 24, t.store.table[p] = none) ∧
    t.arbiter = { pointer := .plan, inFlight := none } ∧
    (∀ p : Fin 24, t.bus.posts[p] =
      { inService := s.bus.posts[p].inService, heater := s.bus.posts[p].heater, feedLimit := s.bus.posts[p].feedLimit
        pollMode := s.bus.posts[p].pollMode, state := if s.bus.posts[p].inService then .empty else .out
        silent := false, current := { vehicle := 0, cabin := none, outside := none }
        held := { vehicle := none, cabin := none, outside := none }, roundMark := false, heaterState := none, age := 0
        silence := 0, baseline := none, lastCall := .none, recorded := 0, sent := none
        claim := s.bus.posts[p].inService, finalOwed := false, fetchMark := false, condition := .none }) ∧
    t.bus.exchange = none ∧ t.bus.queue = [] ∧ t.bus.rotation = 23 ∧
    (∀ p : Fin 24, t.plug[p] =
      { line := s.plug[p].line, filtered := .low, timer := if s.plug[p].line = .high then some 0 else none }) ∧
    t.planner = { timer := 0, replan := false, round := none, ranking := [] } ∧
    t.supply =
      { counter := 0, overrange := false, interval := 0
        limit :=
          { line := s.supply.limit.line, filtered := .low
            timer := if s.supply.limit.line = .high then some 0 else none }
        shed :=
          { line := s.supply.shed.line, filtered := .low
            timer := if s.supply.shed.line = .high then some 0 else none }
        forced := s.supply.forced
        mode := match s.supply.forced with | .none => .normal | .limited => .limited | .shed => .shed
        restore := none, lastHeadroom := 0, lastPower := 0, lastSent := 0 } ∧
    t.link =
      { receiver := .hunting, gap := 0, buffer := none, inProgress := none, posting := [], walk := .inactive
        postingEnabled := s.link.postingEnabled, supervisionTime := s.link.supervisionTime
        supervision := if s.link.supervisionTime = 0 then none else some 0, autonomy := false, resetCause := .restart
        sent := s.link.sent } ∧
    (∀ p : Fin 24, t.attention.posts[p] = { pluggedIn := false, pluggedOut := false, call := false }) ∧
    t.attention.masks = s.attention.masks ∧ t.attention.groups = s.attention.groups ∧
    t.attention.modeChange = false ∧ t.attention.meterOverrange = false ∧ t.attention.roundOverrun = false ∧
    t.attention.changeDropped = false ∧ t.attention.dropped = none

/-- SECOND_BOUNDARY advances the clock, whatever its prescaler holds (model's choice, log entry 2). From a clock in
range a second boundary changes the clock alone: the prescaler begins again at 0, the second advances by one, and
from 59 it becomes 0 and the minute advances by one, from 10079 to 0; minute and second stay in range, whether or
not the clock is set. That the command takes effect at any count of the prescaler, which it sets to 0, is the
model's choice (log entry 2; the prescaler counts milliseconds by log entry 1). After power-on the clock stands at
minute 0, second 0. Rules: R45 for second and minute, R46 for the prescaler. The model's own choices it rests on:
log entries 1 and 2. -/
def Obligations.SecondBoundaryAdvances : Prop :=
  State.reset.clock.minute = 0 ∧ State.reset.clock.second = 0 ∧
  ∀ s : State, s.clock.second ≤ 59 → s.clock.minute ≤ 10079 →
    ∃ m sec, exec .secondBoundary s =
        .next { s with clock := { s.clock with prescaler := 0, second := sec, minute := m } } ∧
      m ≤ 10079 ∧ sec ≤ 59 ∧
      (s.clock.second < 59 → sec = s.clock.second + 1 ∧ m = s.clock.minute) ∧
      (s.clock.second = 59 → sec = 0 ∧ (s.clock.minute < 10079 → m = s.clock.minute + 1) ∧
        (s.clock.minute = 10079 → m = 0))

/-- The ahead and behind reading of a stored minute. The ahead-minutes of a stored minute against now are the one number
from -1439 to 8640 that leads from now to it round the week, and it reads as behind exactly when the distance
forward is 8641 or more. Rules: R52. -/
def Obligations.AheadReading : Prop :=
  ∀ (now t : Nat) (a : Int), now < 10080 → t < 10080 →
    (aheadMinutes now t = a ↔ -1439 ≤ a ∧ a ≤ 8640 ∧ ((now : Int) + a) % 10080 = t) ∧
    (isBehind now t = true ↔ 8641 ≤ ((t : Int) - now) % 10080)

/-- The verdict on a handle. A handle is unknown when its slot is FREE, its generation differs or its slot number lies
above 63, closed when its slot is CLOSED with its generation, live when its slot is LIVE with its generation. Rules:
R27. -/
def Obligations.HandleVerdict : Prop :=
  ∀ (st : Store) (r : RawHandle),
    (st.rawVerdict r = .unknown ↔
      ∀ h : Handle, h.raw = r → (st.dir h.slot).occupancy = .free ∨ (st.dir h.slot).generation ≠ h.gen) ∧
    (st.rawVerdict r = .closed ↔
      ∃ h : Handle, h.raw = r ∧ (st.dir h.slot).occupancy = .closed ∧ (st.dir h.slot).generation = h.gen) ∧
    (st.rawVerdict r = .live ↔
      ∃ h : Handle, h.raw = r ∧ (st.dir h.slot).occupancy = .live ∧ (st.dir h.slot).generation = h.gen) ∧
    (63 < r.slot → st.rawVerdict r = .unknown)

/-- The outcome rule. The outcome of a close: MET with a reached minute, else BROKEN when STALLED, LATE when WAITING,
HEATING or HOLDING, LAPSED when PENDING. (For a record already CLOSED, which no closing access meets, the model says
LAPSED: log entry 24.) Rules: R18. The model's own choices it rests on: log entry 24. -/
def Obligations.OutcomeRule : Prop :=
  ∀ o : Order,
    outcomeRule o =
      if o.reached.isSome then .met
      else match o.state with
        | .stalled => .broken
        | .waiting => .late
        | .heating => .late
        | .holding => .late
        | .pending => .lapsed
        | .closed => .lapsed

/-- FRAME_RECEIVED: what the receiver makes of the bytes. From a hunting receiver, after bytes that are no start byte,
or going on from a length or a body begun before, the bytes that complete a request frame put it into an empty
buffer with the result of its check; a good one also restarts the supervision timer and ends autonomy, with MODE
CHANGE and replan pending. A full buffer discards the frame. Bytes before a start byte are discarded; a length above
60 discards the frame and returns to hunting; bytes that leave a frame unfinished are kept, from its first byte on
or joined to those already received, and the buffer stays as it is. The CRC-8 starts from 0xFF and takes the bits of
each byte most significant first with the polynomial 0x9B. Rules: R164, R176, R179. The model's own choices it rests
on: log entry 26. -/
def Obligations.FrameReceivedBuffers : Prop :=
  (∀ (s : State) (code tag check : Byte) (payload before got bytes : List Byte),
     payload.length ≤ 60 → 0xA5 ∉ before → bytes ≠ [] →
     (s.link.receiver = .hunting ∧
         bytes = before ++ 0xA5 :: byte payload.length :: code :: tag :: (payload ++ [check]) ∨
       s.link.receiver = .length ∧ bytes = byte payload.length :: code :: tag :: (payload ++ [check]) ∨
       s.link.receiver = .body (byte payload.length) got ∧ got ++ bytes = code :: tag :: (payload ++ [check])) →
     exec (.frameReceived bytes) s = .next (State.finish
       (if s.link.buffer.isSome then { s with link := { s.link with receiver := .hunting, gap := 0 } }
       else if check = crc8 (byte payload.length :: code :: tag :: payload) then
         { s with
           link := { s.link with
             receiver := .hunting, gap := 0
             buffer := some { code := code, tag := tag, payload := payload, good := true }
             supervision := if s.link.supervisionTime = 0 then none else some 0
             autonomy := false }
           attention := if s.link.autonomy then { s.attention with modeChange := true } else s.attention
           planner := if s.link.autonomy then { s.planner with replan := true } else s.planner }
       else
         { s with
           link := { s.link with
             receiver := .hunting, gap := 0
             buffer := some { code := code, tag := tag, payload := payload, good := false } } }))) ∧
  (∀ (s : State) (before got bytes : List Byte) (len : Byte) (receiver : Receiver), 0xA5 ∉ before →
     (s.link.receiver = .hunting ∧ bytes = before ∧ receiver = .hunting ∨
       s.link.receiver = .hunting ∧ bytes = before ++ [0xA5] ∧ receiver = .length ∨
       s.link.receiver = .hunting ∧ 60 < len.toNat ∧ bytes = before ++ [0xA5, len] ∧ receiver = .hunting ∨
       s.link.receiver = .length ∧ 60 < len.toNat ∧ bytes = [len] ∧ receiver = .hunting ∨
       s.link.receiver = .hunting ∧ len.toNat ≤ 60 ∧ got.length < len.toNat + 3 ∧ bytes = before ++ 0xA5 :: len :: got ∧
         receiver = .body len got ∨
       s.link.receiver = .length ∧ len.toNat ≤ 60 ∧ got.length < len.toNat + 3 ∧ bytes = len :: got ∧
         receiver = .body len got) →
     exec (.frameReceived bytes) s = .next (State.finish
       { s with link := { s.link with receiver := receiver, gap := 0 } })) ∧
  (∀ (s : State) (got bytes : List Byte) (len : Byte), s.link.receiver = .body len got →
     (got ++ bytes).length < len.toNat + 3 →
     exec (.frameReceived bytes) s = .next (State.finish
       { s with link := { s.link with receiver := .body len (got ++ bytes), gap := 0 } })) ∧
  (∀ (s : State) (before bytes : List Byte) (len : Byte), s.link.receiver = .hunting → 0xA5 ∉ before →
     60 < len.toNat → exec (.frameReceived (before ++ 0xA5 :: len :: bytes)) s = exec (.frameReceived bytes) s) ∧
  (∀ (bytes : List Byte) (b : Byte), crc8 [] = 0xFF ∧
     crc8 (bytes ++ [b]) =
       (List.range 8).foldl (fun (r : Byte) i => (r <<< 1) ^^^ (if r.msb = b.getLsbD (7 - i) then 0 else 0x9B)) (crc8 bytes))

/-- FRAME_GAP_TIMEOUT and SUPERVISION_EXPIRY. A gap timeout abandons the frame being received and changes nothing else.
The expiry of a running supervision timer stops it, enters autonomy, and sets MODE CHANGE and replan pending. Rules:
R164, R176. The model's own choices it rests on: log entry 2. -/
def Obligations.LinkTimeouts : Prop :=
  (∀ s : State, exec .frameGapTimeout s = .next { s with link := { s.link with receiver := .hunting, gap := 0 } }) ∧
  (∀ (s : State) (c : Nat), s.link.supervision = some c → s.link.autonomy = false →
     exec .supervisionExpiry s = .next (State.finish
       { s with
         link := { s.link with supervision := none, autonomy := true }
         attention := { s.attention with modeChange := true }
         planner := { s.planner with replan := true } }))

/-- FRAME_TAKEN judges the buffered frame, the request layouts and codes it reads, and the reply frame with its status
codes. With no request in progress, the buffered frame is answered CHECK ERROR when its check failed, BAD REQUEST
when it is no request, kept in the buffer when it is a change, posting enabled, whose slot no waiting change names
and both posting slots are full, whether or not its checks would refuse it (model's choice, log entry 38), and
otherwise comes to the port at once as its request: posted or refused, carried out, or in progress until the changes
ahead of it have drained. With an empty buffer or a request in progress nothing changes. Each of the 22 codes reads
its payload as its layout gives, field by field; a payload is a request exactly when its code and length stand in
the table, and the reply to a request carries the code of its frame. A reply frame is start byte, length, code, tag,
status, clamped indicator, payload and check. Each of the nineteen statuses has its byte. A handle is sent as its
slot number and its generation, and a change carries its request code and its handle. Rules: R164, R165, R166, R177,
R178, R180. The model's own choices it rests on: log entries 4, 11 and 38. -/
def Obligations.FrameTakenJudged : Prop :=
  ((∀ (s : State) (f : Frame), s.link.buffer = some f → s.link.inProgress = none →
      (f.good = false → exec .frameTaken s = .next (State.finish { s with
        link := { s.link with
          buffer := none
          sent := s.link.sent ++
            [{ code := f.code, tag := f.tag, status := .checkError, clamped := false, payload := [] }] } })) ∧
      (f.good = true → parseRequest f.code f.payload = none → exec .frameTaken s = .next (State.finish { s with
        link := { s.link with
          buffer := none
          sent := s.link.sent ++
            [{ code := f.code, tag := f.tag, status := .badRequest, clamped := false, payload := [] }] } })) ∧
      (∀ r : Request, f.good = true → parseRequest f.code f.payload = some r →
        ((∃ c, r = .change c ∧ s.link.postingEnabled = true ∧ (∀ w ∈ s.link.posting, w.handle.slot ≠ c.handle.slot) ∧
            2 ≤ s.link.posting.length) → exec .frameTaken s = .next s.finish) ∧
        ((∀ c, r = .change c → s.link.postingEnabled = false ∨ (∃ w ∈ s.link.posting, w.handle.slot = c.handle.slot) ∨
            s.link.posting.length < 2) →
          exec .frameTaken s = exec (r.command f.tag) { s with link := { s.link with buffer := none } }))) ∧
   (∀ s : State, s.link.buffer = none ∨ s.link.inProgress ≠ none → exec .frameTaken s = .next s)) ∧
  ((∀ a b c d e f g h i j k l m n o : Byte,
      parseRequest 0x01 [a, b, c, d, e, f, g, h, i, j, k, l] = some (.place
        { presence := a, vehicle := (b ++ c).toNat, departure := (d ++ e).toNat, target := (f ++ g).toInt
          cls := h.toNat, tier := i.toNat, earliest := (j ++ k).toNat, hold := l.toNat }) ∧
      parseRequest 0x02 [a, b, c, d, e, f, g, h, i, j, k, l, m, n, o] = some (.change (.amend
        { handle := { slot := a.toNat, gen := b.toNat }, mask := c ++ d, vehicle := (e ++ f).toNat
          departure := (g ++ h).toNat, target := (i ++ j).toInt, cls := k.toNat, tier := l.toNat
          earliest := (m ++ n).toNat, hold := o.toNat })) ∧
      parseRequest 0x03 [a, b] = some (.change (.withdraw { slot := a.toNat, gen := b.toNat })) ∧
      parseRequest 0x04 [a, b] = some (.change (.release { slot := a.toNat, gen := b.toNat })) ∧
      parseRequest 0x05 [a, b] = some (.lookup { slot := a.toNat, gen := b.toNat }) ∧
      parseRequest 0x06 [a, b] = some (.find (a ++ b).toNat) ∧
      parseRequest 0x07 [2] = some .walkNext ∧ (a ≠ 2 → parseRequest 0x07 [a] = some (.walkStart a.toNat)) ∧
      parseRequest 0x09 [] = some .readSite ∧
      parseRequest 0x0A [a, b, c] = some (.setLink a.toNat (b ++ c).toNat) ∧
      parseRequest 0x0B [a, b, c, d, e, f, g] = some (.setPost
        { post := a.toNat, mask := b, service := c.toNat, interface_ := d.toNat, feedLimit := (e ++ f).toNat
          pollMode := g.toNat }) ∧
      parseRequest 0x0C [a] = some (.readPost a.toNat) ∧
      parseRequest 0x0D [a, b, c, d, e, f, g, h, i] = some (.setClass
        { cls := a.toNat, c := b.toNat, g := c.toNat, pmax := (d ++ e).toNat, pmin := (f ++ g).toNat, h := h.toNat
          m := i.toNat }) ∧
      parseRequest 0x0E [a] = some (.clearClass a.toNat) ∧ parseRequest 0x0F [a] = some (.readClass a.toNat) ∧
      parseRequest 0x10 [a, b, c] = some (.setTime (a ++ b).toNat c.toNat) ∧ parseRequest 0x11 [] = some .readTime ∧
      parseRequest 0x12 [a] = some (.setMode a.toNat) ∧ parseRequest 0x13 [] = some .replan ∧
      parseRequest 0x14 [] = some (.readAttention none) ∧ parseRequest 0x14 [a] = some (.readAttention (some a.toNat)) ∧
      parseRequest 0x15 [a, b] = some (.clearAttention a.toNat b) ∧
      parseRequest 0x16 [a, b, c, d, e] = some (.setMasks (d ++ c ++ b ++ a) e)) ∧
   (∀ a b c d e f g h i j k l m n o p q r t u v w : Byte,
      parseRequest 0x08 [a, b, c, d, e, f, g, h, i, j, k, l, m, n, o, p, q, r, t, u, v, w] = some (.setSite
        { siteLimit := (a ++ b).toNat, limitedLevel := (c ++ d).toNat, ceiling := (e ++ f).toNat
          autoCeiling := (g ++ h).toNat, rampLimit := (i ++ j).toNat, meterConstant := k.toNat, meterEdge := l.toNat
          restoreDelay := (m ++ n).toNat, roundPeriod := o.toNat, startLead := p.toNat, grace := q.toNat
          departWindow := r.toNat, horizon := (t ++ u).toNat, fallback := (v ++ w).toInt })) ∧
   (∀ (code : Byte) (payload : List Byte),
      (parseRequest code payload).isSome = true ↔
        (code.toNat, payload.length) ∈
          [(0x01, 12), (0x02, 15), (0x03, 2), (0x04, 2), (0x05, 2), (0x06, 2), (0x07, 1), (0x08, 22), (0x09, 0), (0x0A, 3)
          , (0x0B, 7), (0x0C, 1), (0x0D, 9), (0x0E, 1), (0x0F, 1), (0x10, 3), (0x11, 0), (0x12, 1), (0x13, 0), (0x14, 0)
          , (0x14, 1), (0x15, 2), (0x16, 5)]) ∧
   (∀ r : Reply, r.frame =
      [0xA5, byte r.payload.length, r.code, r.tag, r.status.code, if r.clamped then 1 else 0] ++ r.payload ++
        [crc8 ([byte r.payload.length, r.code, r.tag, r.status.code, if r.clamped then 1 else 0] ++ r.payload)])) ∧
  ((∀ (code : Byte) (payload : List Byte) (r : Request), parseRequest code payload = some r → r.code = code) ∧
   ((∀ f, (Change.amend f).code = 0x02 ∧ (Change.amend f).handle = f.handle) ∧
     (∀ h, (Change.withdraw h).code = 0x03 ∧ (Change.withdraw h).handle = h) ∧
     (∀ h, (Change.release h).code = 0x04 ∧ (Change.release h).handle = h)) ∧
   (∀ h : RawHandle, h.bytes = [byte h.slot, byte h.gen]) ∧
   Status.done.code = 0x00 ∧ Status.posted.code = 0x01 ∧ Status.restarted.code = 0x02 ∧ Status.endOfWalk.code = 0x03 ∧
   Status.badRequest.code = 0x10 ∧ Status.checkError.code = 0x11 ∧ Status.badField.code = 0x12 ∧
   Status.unknownHandle.code = 0x13 ∧ Status.closed.code = 0x14 ∧ Status.notClosed.code = 0x15 ∧
   Status.noClass.code = 0x16 ∧ Status.tableFull.code = 0x17 ∧ Status.vehicleFull.code = 0x18 ∧
   Status.duplicate.code = 0x19 ∧ Status.past.code = 0x1A ∧ Status.locked.code = 0x1B ∧ Status.inUse.code = 0x1C ∧
   Status.busy.code = 0x1D ∧ Status.noClock.code = 0x1E)

/-- PLACE at the port. A ready port refuses PLACE with NO CLOCK, BAD FIELD, PAST or NO CLASS, the first that applies,
and otherwise presents its create access; nothing else changes. Rules: R8, R54. The model's own choices it rests on:
log entry 4. -/
def Obligations.PlaceAtPort : Prop :=
  ∀ (s : State) (tag : Byte) (f : PlaceFields), s.ready →
    exec (.place tag f) s = .next (State.finish
      (if s.clock.isSet = false then s.replied (.place f) tag .noClock false []
      else if f.vehicle = 0 ∨ 65534 < f.vehicle ∨ 2 < f.tier ∨ 10079 < f.departure ∨ 15 < f.cls ∨
          (f.presence.getLsbD 0 = true ∧ 10079 < f.earliest) then s.replied (.place f) tag .badField false []
      else if isBehind s.clock.minute f.departure then s.replied (.place f) tag .past false []
      else if ∀ c : Fin 16, f.cls = c → s.classes[c].params = none then s.replied (.place f) tag .noClass false []
      else s.inAccess (.place f) tag (.create f)))

/-- AMEND, WITHDRAW and RELEASE posted at the port. A change the port posts is refused by the first check that fails
(unknown handle, CLOSED or NOT CLOSED, and for AMEND LOCKED, BAD FIELD, PAST, NO CLASS), and otherwise joins the
posting slots and is answered POSTED with its handle. Rules: R11, R12, R14, R16, R29, R166, R168. The model's own
choices it rests on: log entries 4 and 11. -/
def Obligations.ChangesPosted : Prop :=
  (∀ (s : State) (tag : Byte) (f : AmendFields) (clamped : Bool), s.postable (.amend f) →
     (clamped = true ↔ (f.mask.getLsbD 1 = true ∧ (f.target < 100 ∨ 280 < f.target)) ∨
       (f.mask.getLsbD 7 = true ∧ 60 < f.hold) ∨
       (f.mask.getLsbD 5 = true ∧ f.mask.getLsbD 0 = true ∧ 0 ≤ aheadMinutes s.clock.minute f.earliest ∧
         aheadMinutes s.clock.minute f.departure < aheadMinutes s.clock.minute f.earliest)) →
     exec (.amend tag f) s = .next (State.finish
       (if s.store.rawVerdict f.handle = .unknown then s.replied (.change (.amend f)) tag .unknownHandle false []
       else if s.store.rawVerdict f.handle = .closed then s.replied (.change (.amend f)) tag .closed false []
       else if AmendFields.locked f (s.store.rawState f.handle) then s.replied (.change (.amend f)) tag .locked false []
       else if AmendFields.badField f then s.replied (.change (.amend f)) tag .badField false []
       else if ∃ d ∈ f.departure?, isBehind s.clock.minute d then s.replied (.change (.amend f)) tag .past false []
       else if ∃ c ∈ f.cls?, s.classUndefined c then s.replied (.change (.amend f)) tag .noClass false []
       else s.postedAs (.amend f) tag clamped))) ∧
  (∀ (s : State) (tag : Byte) (h : RawHandle),
     (s.postable (.withdraw h) → exec (.withdraw tag h) s = .next (State.finish
       (match s.store.rawVerdict h with
       | .unknown => s.replied (.change (.withdraw h)) tag .unknownHandle false []
       | .closed => s.replied (.change (.withdraw h)) tag .closed false []
       | .live => s.postedAs (.withdraw h) tag false))) ∧
     (s.postable (.release h) → exec (.release tag h) s = .next (State.finish
       (match s.store.rawVerdict h with
       | .unknown => s.replied (.change (.release h)) tag .unknownHandle false []
       | .live => s.replied (.change (.release h)) tag .notClosed false []
       | .closed => s.postedAs (.release h) tag false))))

/-- Requests that are not posted: refused or presented, waiting for the posted changes ahead, and carried out once they
have drained. With posting disabled, AMEND, WITHDRAW and RELEASE are refused by their checks against the slot
directory, and otherwise present their store access. While posted changes wait, a request that is not posted (a
read, a setting, a change with posting disabled or one naming the slot of a waiting change) becomes the request in
progress and changes nothing else. The end of a LINK access leaves it waiting while a posted change is left, and
carries it out when none is, after a round that is due has started: the effect is that of its row at that moment.
That a change naming a waiting change's slot is taken also with both posting slots full is the model's choice, log
entry 38. That a row may come without its frame, and that the due round starts first, are the model's (log entries 4
and 11). Rules: R29, R166, R167, R168. The model's own choices it rests on: log entries 4, 11 and 38. -/
def Obligations.ChangesUnposted : Prop :=
  (∀ (s : State) (tag : Byte),
     (∀ f : AmendFields, s.unposted → exec (.amend tag f) s = .next (State.finish
       (if s.store.rawVerdict f.handle = .unknown then s.replied (.change (.amend f)) tag .unknownHandle false []
       else if s.store.rawVerdict f.handle = .closed then s.replied (.change (.amend f)) tag .closed false []
       else if AmendFields.locked f (s.store.rawState f.handle) then s.replied (.change (.amend f)) tag .locked false []
       else s.inAccess (.change (.amend f)) tag (.amend f)))) ∧
     (∀ h : RawHandle, s.unposted → exec (.withdraw tag h) s = .next (State.finish
       (match s.store.rawVerdict h with
       | .unknown => s.replied (.change (.withdraw h)) tag .unknownHandle false []
       | .closed => s.replied (.change (.withdraw h)) tag .closed false []
       | .live => s.inAccess (.change (.withdraw h)) tag (.withdraw h)))) ∧
     (∀ h : RawHandle, s.unposted → exec (.release tag h) s = .next (State.finish
       (match s.store.rawVerdict h with
       | .unknown => s.replied (.change (.release h)) tag .unknownHandle false []
       | .live => s.replied (.change (.release h)) tag .notClosed false []
       | .closed => s.inAccess (.change (.release h)) tag (.free h))))) ∧
  ((∀ (s : State) (r : Request) (tag : Byte), s.link.posting ≠ [] → s.link.inProgress = none → s.link.buffer = none →
      (∀ c, r = .change c → s.link.postingEnabled = false ∨ ∃ w ∈ s.link.posting, w.handle.slot = c.handle.slot) →
      exec (r.command tag) s = .next (State.finish
        { s with link := { s.link with inProgress := some { request := r, tag := tag, stage := .taken } } })) ∧
   (∀ s : State, s.link.posting ≠ [] ∨ (∀ p, s.link.inProgress = some p → p.stage ≠ .taken) → s.finishLink = s.finish) ∧
   (∀ (s t : State) (r : Request) (tag : Byte), s.link.posting = [] →
      s.link.inProgress = some { request := r, tag := tag, stage := .taken } →
      t = (if s.planner.round = none ∧ s.planner.replan = true then s.startRound else s) →
      ((∀ c, r ≠ .change c) →
        exec (r.command tag) { t with link := { s.link with inProgress := none, buffer := none } } =
          .next { s.finishLink with link := { s.finishLink.link with buffer := none } }) ∧
      (∀ c, r = .change c →
        exec (r.command tag)
            { t with link := { s.link with inProgress := none, buffer := none, postingEnabled := false } } =
          .next { s.finishLink with link := { s.finishLink.link with buffer := none, postingEnabled := false } })))

/-- LOOKUP and FIND at the port. LOOKUP of an unknown handle is refused with UNKNOWN HANDLE and otherwise presents a
record read; FIND of a vehicle number outside 1 to 65534 is refused with BAD FIELD and otherwise presents an index
read. Rules: R27, R33, R170. The model's own choices it rests on: log entry 4. -/
def Obligations.LookupFindAtPort : Prop :=
  ∀ (s : State) (tag : Byte),
    (∀ r : RawHandle, s.ready → exec (.lookup tag r) s = .next (State.finish
      (match r.handle? with
      | none => s.replied (.lookup r) tag .unknownHandle false []
      | some h =>
        if s.store.verdict h = .unknown then s.replied (.lookup r) tag .unknownHandle false []
        else s.inAccess (.lookup r) tag (.read h .done)))) ∧
    (∀ v : Nat, s.ready → exec (.find tag v) s = .next (State.finish
      (if 1 ≤ v ∧ v ≤ 65534 then s.inAccess (.find v) tag (.index v)
      else s.replied (.find v) tag .badField false [])))

/-- WALK_START and WALK_NEXT. A SLOT walk reads the lowest-numbered slot that is not FREE, beyond the last returned, and
ends with END OF WALK when there is none. A RANK walk reads the handles of the ranking in order, each once, ends
with END OF WALK when none is left, and begins again with RESTARTED after the ranking was replaced. WALK_NEXT
without a walk is BAD REQUEST, and a form above 2 is BAD FIELD. Rules: R171, R172. The model's own choices it rests
on: log entries 4, 27 and 36. -/
def Obligations.Walks : Prop :=
  (∀ (s : State) (tag : Byte),
     (s.ready →
       (∀ n, s.store.lowestOccupied 0 n → exec (.walkStart tag 0) s = .next (State.finish
         (State.setWalk (s.inAccess (.walkStart 0) tag (.read (s.store.slotHandle n) .done)) (.slot n)))) ∧
       ((∀ n, (s.store.dir n).occupancy = .free) → exec (.walkStart tag 0) s = .next (State.finish
         (State.setWalk (s.replied (.walkStart 0) tag .endOfWalk false []) .inactive)))) ∧
     (∀ last : Fin 64, s.ready → s.link.walk = .slot last →
       (∀ n, s.store.lowestOccupied (last.val + 1) n → exec (.walkNext tag) s = .next (State.finish
         (State.setWalk (s.inAccess .walkNext tag (.read (s.store.slotHandle n) .done)) (.slot n)))) ∧
       ((∀ n : Fin 64, last < n → (s.store.dir n).occupancy = .free) → exec (.walkNext tag) s = .next (State.finish
         (State.setWalk (s.replied .walkNext tag .endOfWalk false []) .inactive))))) ∧
  (∀ (s : State) (tag : Byte),
     (s.ready → exec (.walkStart tag 1) s = .next (State.finish
       (match s.planner.ranking with
       | [] => State.setWalk (s.replied (.walkStart 1) tag .endOfWalk false []) .inactive
       | h :: _ => State.setWalk (s.inAccess (.walkStart 1) tag (.read h .done)) (.rank [h] false)))) ∧
     (s.ready → s.link.walk = .inactive →
       exec (.walkNext tag) s = .next (State.finish (s.replied .walkNext tag .badRequest false []))) ∧
     (∀ returned, s.ready → s.link.walk = .rank returned true →
       exec (.walkNext tag) s = .next (State.finish
         (match s.planner.ranking with
         | [] => State.setWalk (s.replied .walkNext tag .restarted false []) .inactive
         | h :: _ => State.setWalk (s.inAccess .walkNext tag (.read h .restarted)) (.rank [h] false)))) ∧
     (∀ returned before h after, s.ready → s.link.walk = .rank returned false →
       s.planner.ranking = before ++ h :: after → (∀ x ∈ before, x ∈ returned) → h ∉ returned →
       exec (.walkNext tag) s = .next (State.finish
         (State.setWalk (s.inAccess .walkNext tag (.read h .done)) (.rank (returned ++ [h]) false)))) ∧
     (∀ returned, s.ready → s.link.walk = .rank returned false →
       (∀ x ∈ s.planner.ranking, x ∈ returned) →
       exec (.walkNext tag) s = .next (State.finish
         (State.setWalk (s.replied .walkNext tag .endOfWalk false []) .inactive))) ∧
     (∀ form, 2 < form → s.ready →
       exec (.walkStart tag form) s = .next (State.finish (s.replied (.walkStart form) tag .badField false []))))

/-- What an AMEND writes into the record. The locks and the field test of AMEND, bit by bit of its mask. The record
after an AMEND: each named field, the target and the hold extension clamped, an earliest start brought back to the
departure when it lies after it, the reached minute removed when departure or target is named, and every other field
as it was; the clamped indicator says whether a named target or hold extension, or the earliest start, was moved.
Rules: R9, R11, R12, R13, R180. The model's own choices it rests on: log entries 9 and 10. -/
def Obligations.AmendedRecord : Prop :=
  (∀ (f : AmendFields) (x : OrderState),
     (AmendFields.locked f x = true ↔
       (f.mask.getLsbD 2 = true ∧ (x = .heating ∨ x = .holding)) ∨
       (f.mask.getLsbD 4 = true ∧ (x = .waiting ∨ x = .heating ∨ x = .holding ∨ x = .stalled))) ∧
     (AmendFields.badField f = true ↔
       (f.mask.getLsbD 4 = true ∧ (f.vehicle = 0 ∨ 65534 < f.vehicle)) ∨
       (f.mask.getLsbD 3 = true ∧ 2 < f.tier) ∨
       (f.mask.getLsbD 0 = true ∧ 10079 < f.departure) ∨
       (f.mask.getLsbD 2 = true ∧ 15 < f.cls) ∨
       (f.mask.getLsbD 5 = true ∧ 10079 < f.earliest) ∨
       (f.mask.getLsbD 5 = true ∧ f.mask.getLsbD 6 = true) ∨
       (f.mask.getLsbD 7 = true ∧ f.mask.getLsbD 8 = true))) ∧
  (∀ (o o' : Order) (now : Nat) (f : AmendFields), o' = o.amend now f →
     o'.departure = (if f.mask.getLsbD 0 = true then f.departure else o.departure) ∧
     o'.target = (if f.mask.getLsbD 1 = true then min 280 (max 100 f.target) else o.target) ∧
     (f.mask.getLsbD 2 = true → f.cls < 16 → (o'.cls : Nat) = f.cls) ∧ (f.mask.getLsbD 2 = false → o'.cls = o.cls) ∧
     (f.mask.getLsbD 3 = true → f.tier < 3 → o'.tier.code = byte f.tier) ∧ (f.mask.getLsbD 3 = false → o'.tier = o.tier) ∧
     o'.vehicle = (if f.mask.getLsbD 4 = true then f.vehicle else o.vehicle) ∧
     (∀ e, (if f.mask.getLsbD 6 = true then none else if f.mask.getLsbD 5 = true then some f.earliest else o.earliest) =
         some e →
       o'.earliest = some (if 0 ≤ aheadMinutes now e ∧ aheadMinutes now o'.departure < aheadMinutes now e then o'.departure
         else e)) ∧
     ((if f.mask.getLsbD 6 = true then none else if f.mask.getLsbD 5 = true then some f.earliest else o.earliest) = none →
       o'.earliest = none) ∧
     o'.hold = (if f.mask.getLsbD 8 = true then none else if f.mask.getLsbD 7 = true then some (min 60 f.hold) else o.hold) ∧
     o'.reached = (if f.mask.getLsbD 0 = true ∨ f.mask.getLsbD 1 = true then none else o.reached) ∧
     o'.handle = o.handle ∧ o'.state = o.state ∧ o'.boundPost = o.boundPost ∧ o'.stall = o.stall ∧
     o'.outcome = o.outcome ∧ o'.estimate = o.estimate ∧ o'.grant = o.grant ∧ o'.short = o.short ∧
     o'.behind = o.behind ∧ o'.energy = o.energy ∧
     (amendClamped o now f = true ↔
       (f.mask.getLsbD 1 = true ∧ o'.target ≠ f.target) ∨ (f.mask.getLsbD 7 = true ∧ 60 < f.hold) ∨
       o'.earliest ≠
         (if f.mask.getLsbD 6 = true then none else if f.mask.getLsbD 5 = true then some f.earliest else o.earliest)))

/-- SET TIME, READ TIME, SET MODE and REPLAN. SET TIME in range sets minute and second, clears the prescaler, sets the
indicator and replan pending; out of range it is BAD FIELD. READ TIME returns the clock. SET MODE with 0, 1 or 2
stores the forced mode NONE, LIMITED or SHED and judges the calls anew; above 2 it is BAD FIELD. REPLAN sets replan
pending and returns whether a round starts at once. Rules: R48, R50, R119, R147, R180. The model's own choices it
rests on: log entry 4. -/
def Obligations.TimeModeReplan : Prop :=
  (∀ (s : State) (tag : Byte),
     (∀ m sec : Nat, s.ready → exec (.setTime tag m sec) s = .next (State.finish
       (if m ≤ 10079 ∧ sec ≤ 59 then
         { s.replied (.setTime m sec) tag .done false [] with
           clock := { prescaler := 0, second := sec, minute := m, isSet := true }
           planner := { s.planner with replan := true } }
       else s.replied (.setTime m sec) tag .badField false []))) ∧
     (s.ready → exec (.readTime tag) s = .next (State.finish
       (s.replied .readTime tag .done false
         [byte (s.clock.minute / 256), byte s.clock.minute, byte s.clock.second, if s.clock.isSet then 1 else 0])))) ∧
  (∀ (s : State) (tag : Byte),
     (∀ m : Nat, s.ready → 2 < m →
       exec (.setMode tag m) s = .next (State.finish (s.replied (.setMode m) tag .badField false []))) ∧
     (∀ (m : Nat) (v : ForcedMode), s.ready → m = (match v with | .none => 0 | .limited => 1 | .shed => 2) →
       exec (.setMode tag m) s = .next (State.finish
         ((s.replied (.setMode m) tag .done false []).judgeCalls { s.supply with forced := v }))) ∧
     (s.ready → exec (.replan tag) s = .next (State.finish
       { s.replied .replan tag .done false [if s.planner.round.isNone then 1 else 0] with
         planner := { s.planner with replan := true } })))

/-- SET SITE clamps and stores the settings, and what the change does at once. SET SITE with a meter edge outside its
set is BAD FIELD. Otherwise every setting is stored at the nearest value of its range, and the clamped indicator
says whether any was moved. Then, in this order: a changed restore delay at or below the running count makes the
restore timer expire, with MODE CHANGE and replan pending, which starts a round when none is in flight; a changed
round period at or below the round timer starts a round, or is an overrun when one is in flight; a changed start
lead or grace sets replan pending. The order is the model's choice (log entry 16); that what comes second finds the
round in flight, as an overrun or as a replan kept for the release, is R117. Rules: R57, R116, R117, R118, R119,
R149, R173. The model's own choices it rests on: log entries 4 and 16. -/
def Obligations.SetSiteStores : Prop :=
  ∀ (s : State) (tag : Byte) (f : SiteFields), s.ready →
    (1 < f.meterEdge → exec (.setSite tag f) s = .next (State.finish (s.replied (.setSite f) tag .badField false []))) ∧
    (∀ (x : SiteSettings) (clamped restoreDue roundDue : Bool) (a b c d : State), f.meterEdge ≤ 1 →
      x = { siteLimit := min 2000 (max 10 f.siteLimit), limitedLevel := min 2000 f.limitedLevel
            ceiling := min 500 f.ceiling, autoCeiling := min 500 f.autoCeiling, rampLimit := min 500 (max 1 f.rampLimit)
            meterConstant := min 100 (max 1 f.meterConstant), meterEdge := if f.meterEdge = 0 then .rising else .falling
            restoreDelay := min 900 f.restoreDelay, roundPeriod := min 120 (max 10 f.roundPeriod)
            startLead := min 60 f.startLead, grace := min 60 f.grace, departWindow := min 120 f.departWindow
            horizon := min 8640 (max 60 f.horizon), fallback := min 600 (max (-500) f.fallback) } →
      (clamped = false ↔
        x.siteLimit = f.siteLimit ∧ x.limitedLevel = f.limitedLevel ∧ x.ceiling = f.ceiling ∧
          x.autoCeiling = f.autoCeiling ∧ x.rampLimit = f.rampLimit ∧ x.meterConstant = f.meterConstant ∧
          x.restoreDelay = f.restoreDelay ∧ x.roundPeriod = f.roundPeriod ∧ x.startLead = f.startLead ∧
          x.grace = f.grace ∧ x.departWindow = f.departWindow ∧ x.horizon = f.horizon ∧ x.fallback = f.fallback) →
      (restoreDue = true ↔ s.supply.mode = .restoring ∧ x.restoreDelay ≠ s.site.restoreDelay ∧
        ∃ n ∈ s.supply.restore, x.restoreDelay ≤ n / 1000) →
      (roundDue = true ↔ x.roundPeriod ≠ s.site.roundPeriod ∧ x.roundPeriod ≤ s.planner.timer / 1000) →
      a = { s.replied (.setSite f) tag .done clamped [] with
            site := x
            supply :=
              if restoreDue then
                { s.supply with
                  mode := if s.supply.limit.filtered = .high ∨ s.supply.forced = .limited then .limited else .normal
                  restore := none }
              else s.supply
            attention := if restoreDue then { s.attention with modeChange := true } else s.attention
            planner := if restoreDue then { s.planner with replan := true } else s.planner } →
      b = (if a.planner.round = none ∧ a.planner.replan = true then a.startRound else a) →
      c = (if roundDue = false then b
        else if b.planner.round = none then b.startRound
        else
          { b with
            planner := { b.planner with timer := 0 }, attention := { b.attention with roundOverrun := true } }) →
      d = (if x.startLead ≠ s.site.startLead ∨ x.grace ≠ s.site.grace then
          { c with planner := { c.planner with replan := true } }
        else c) →
      exec (.setSite tag f) s = .next d.finish)

/-- READ SITE and SET LINK. READ SITE returns the 44 bytes of its image, each field given, and changes nothing. SET LINK
stores posting and the supervision time, brought into 10 to 600 s when not 0, and restarts or stops the supervision
timer when the time it is stored as differs from the one held (model's choice, log entry 37); a posting value above
1 is BAD FIELD. Rules: R174, R175, R178, R180. The model's own choices it rests on: log entries 4 and 37. -/
def Obligations.SiteAndLinkRequests : Prop :=
  ∀ (s : State) (tag : Byte),
    (∀ image : List Byte, s.ready →
      image = be16 s.site.siteLimit ++ be16 s.site.limitedLevel ++ be16 s.site.ceiling ++ be16 s.site.autoCeiling ++
        be16 s.site.rampLimit ++
        [byte s.site.meterConstant, (match s.site.meterEdge with | .rising => 0 | .falling => 1 : Byte)] ++
        be16 s.site.restoreDelay ++
        [byte s.site.roundPeriod, byte s.site.startLead, byte s.site.grace, byte s.site.departWindow] ++
        be16 s.site.horizon ++ beS16 s.site.fallback ++ ([if s.link.postingEnabled then 1 else 0] : List Byte) ++
        be16 s.link.supervisionTime ++
        [ (match s.supply.mode with | .normal => 0 | .limited => 1 | .shed => 2 | .restoring => 3 : Byte)
        , (match s.supply.forced with | .none => 0 | .limited => 1 | .shed => 2 : Byte)
        , if s.link.autonomy then 1 else 0 ] ++
        be16 (s.supply.lastHeadroom / 65536) ++ be16 s.supply.lastHeadroom ++
        be16 (s.supply.lastPower / 65536) ++ be16 s.supply.lastPower ++
        be16 (s.supply.lastSent / 65536) ++ be16 s.supply.lastSent ++
        [ (match s.planner.round with
          | none => 0
          | some r => match r.phase with | .snapshot _ => 1 | .sweep _ => 2 | .compute => 3 | .writeBack _ => 4 : Byte)
        , if s.planner.replan then 1 else 0, byte s.link.posting.length
        , (match s.link.resetCause with | .powerOn => 0 | .restart => 1 : Byte) ] →
      exec (.readSite tag) s = .next (State.finish (s.replied .readSite tag .done false image)) ∧ image.length = 44) ∧
    (∀ (n : Nat) (i : Int), be16 n = [byte (n / 256), byte n] ∧
      beS16 i = [(BitVec.ofInt 16 i).extractLsb' 8 8, (BitVec.ofInt 16 i).extractLsb' 0 8]) ∧
    (∀ p t : Nat, s.ready → exec (.setLink tag p t) s = .next (State.finish
      (if 1 < p then s.replied (.setLink p t) tag .badField false []
      else
        let v := if t = 0 then 0 else min 600 (max 10 t)
        { s with
          link := { (s.replied (.setLink p t) tag .done (v ≠ t) []).link with
            postingEnabled := p = 1
            supervisionTime := v
            supervision :=
              if v = s.link.supervisionTime then s.link.supervision else if v = 0 then none else some 0 } })))

/-- SET POST's refusals and settings, and READ POST. SET POST with a post above 23 or a named value outside its set is
BAD FIELD, also where it would change an OCCUPIED or BOUND post (that BAD FIELD comes before BUSY is the model's
choice, log entry 31); a change of interface or feed limit at an OCCUPIED or BOUND post is BUSY; otherwise, where
the service is not named, the named interface (0 CONTINUOUS, 1 STEPPED, 2 SWITCHED), feed limit (clamped and rounded
down) and poll mode (0 LATENT, 1 DIRECT) are stored. A feed limit is a change when the limit it is stored as differs
from the one held (model's choice, log entry 37). SET POST that names the service is SetPostService. READ POST
returns the 34 bytes of the post image, each field given, and changes nothing; a post above 23 is BAD FIELD. Rules:
R60, R63, R178, R180, R181. The model's own choices it rests on: log entries 4, 18, 31 and 37. -/
def Obligations.SetPostAndRead : Prop :=
  (∀ (s : State) (tag : Byte) (f : SetPostFields), s.ready →
     (23 < f.post → exec (.setPost tag f) s = .next (State.finish (s.replied (.setPost f) tag .badField false []))) ∧
     (∀ (n : Fin 24) (outside : Prop), f.post = n →
       (outside ↔ (f.mask.getLsbD 0 = true ∧ 1 < f.service) ∨ (f.mask.getLsbD 1 = true ∧ 2 < f.interface_) ∨
         (f.mask.getLsbD 3 = true ∧ 1 < f.pollMode)) →
       (outside →
         exec (.setPost tag f) s = .next (State.finish (s.replied (.setPost f) tag .badField false []))) ∧
       (¬ outside → s.bus.posts[n].state = .occupied ∨ s.bus.posts[n].state = .bound →
         (f.mask.getLsbD 1 = true ∧ f.interface_ ≠
             (match s.bus.posts[n].heater with | .continuous => 0 | .stepped => 1 | .switched => 2)) ∨
           (f.mask.getLsbD 2 = true ∧
             min 10000 (max 1000 f.feedLimit) / 100 * 100 ≠ s.bus.posts[n].feedLimit) →
         exec (.setPost tag f) s = .next (State.finish (s.replied (.setPost f) tag .busy false []))))) ∧
  (∀ (s : State) (tag : Byte) (f : SetPostFields) (n : Fin 24) (h : Heater) (feed : Nat) (q : PollMode),
     s.ready → f.post = n → f.mask.getLsbD 0 = false →
     (f.mask.getLsbD 1 = true → f.interface_ = (match h with | .continuous => 0 | .stepped => 1 | .switched => 2)) →
     (f.mask.getLsbD 1 = false → h = s.bus.posts[n].heater) →
     (f.mask.getLsbD 2 = true → feed = min 10000 (max 1000 f.feedLimit) / 100 * 100) →
     (f.mask.getLsbD 2 = false → feed = s.bus.posts[n].feedLimit) →
     (f.mask.getLsbD 3 = true → f.pollMode = (match q with | .latent => 0 | .direct => 1)) →
     (f.mask.getLsbD 3 = false → q = s.bus.posts[n].pollMode) →
     ((s.bus.posts[n].state = .occupied ∨ s.bus.posts[n].state = .bound) →
       h = s.bus.posts[n].heater ∧ feed = s.bus.posts[n].feedLimit) →
     exec (.setPost tag f) s = .next (State.finish
       { s.replied (.setPost f) tag .done (f.mask.getLsbD 2 && feed ≠ f.feedLimit) [] with
         bus := s.bus.modify n (fun p => { p with heater := h, feedLimit := feed, pollMode := q }) })) ∧
  (∀ (s : State) (tag : Byte) (k : Nat), s.ready →
     (∀ (n : Fin 24) (p : Post) (image : List Byte), k = n → p = s.bus.posts[n] →
       image =
         [ byte n, if p.inService then 1 else 0
         , (match p.heater with | .continuous => 0 | .stepped => 1 | .switched => 2 : Byte) ] ++ be16 p.feedLimit ++
         [ (match p.pollMode with | .latent => 0 | .direct => 1 : Byte)
         , (match p.state with | .out => 0 | .empty => 1 | .occupied => 2 | .bound => 3 : Byte)
         , (if p.silent then 1 else 0) + (if p.sent = none then 2 else 0) + (if p.finalOwed then 4 else 0) +
             (if p.baseline = none then 0 else 8) + (if p.roundMark then 16 else 0) ] ++
         (match s.store.table[n] with | none => [0xFF, 0xFF] | some h => [byte h.slot, byte h.gen]) ++
         ([(if p.current.cabin = none then 0 else 1) + (if p.current.outside = none then 0 else 2)] : List Byte) ++
         be16 p.current.vehicle ++ beS16 (p.current.cabin.getD 0) ++ beS16 (p.current.outside.getD 0) ++
         [ (match p.heaterState with | none => 0xFF | some .off => 0 | some .running => 1 | some .fault => 2 : Byte)
         , byte p.age
         , (if p.held.vehicle = none then 0 else 1) + (if p.held.cabin = none then 0 else 2) +
             (match p.held.outside with | none => 0 | some none => 4 | some (some _) => 12 : Byte) ] ++
         be16 (p.held.vehicle.getD 0) ++ beS16 (p.held.cabin.getD 0) ++ beS16 ((p.held.outside.getD none).getD 0) ++
         [byte p.silence] ++ be16 p.recorded ++ be16 (p.sent.getD 0) ++ be16 (p.baseline.getD 0) ++
         [(match p.lastCall with | .none => 0 | .leaving => 1 | .help => 2 : Byte)] →
       exec (.readPost tag k) s = .next (State.finish (s.replied (.readPost k) tag .done false image)) ∧
       image.length = 34) ∧
     (23 < k → exec (.readPost tag k) s = .next (State.finish (s.replied (.readPost k) tag .badField false []))))

/-- SET POST that names the service, alone or with the other settings. Any SET POST that names the service, and is
neither BAD FIELD nor BUSY, stores the named interface (0 CONTINUOUS, 1 STEPPED, 2 SWITCHED), feed limit (clamped
and rounded down) and poll mode (0 LATENT, 1 DIRECT), is answered DONE, clamped when the feed limit was moved, and
then takes the service. Service OUT clears the post, zeroes its grant, sets the final setpoint owed unless the sent
grant is 0, is noted against a bind attempt in flight at the post, and presents an unbind at a BOUND post. Service
IN makes the sent grant unknown, sets the claim, and makes the post EMPTY or, with the filtered plug level high,
OCCUPIED by a plug-in: vehicle number and cabin reading cleared, baseline and fetch mark cleared, the pending report
emptied, PLUGGED-IN set and the plug-in noted against an exchange in flight with the post. Whether a feed limit is a
change, and so BUSY, is judged by the limit it is stored as (model's choice, log entry 37). A service already held
stores the settings and changes nothing else. The whole next state is given in each case. Rules: R60, R61, R62, R66,
R180. The model's own choices it rests on: log entries 4, 12 and 37. -/
def Obligations.SetPostService : Prop :=
  ∀ (s t : State) (tag : Byte) (f : SetPostFields) (n : Fin 24) (h : Heater) (feed : Nat) (q : PollMode) (p : Post),
    s.ready → f.post = n → f.mask.getLsbD 0 = true →
    (f.mask.getLsbD 1 = true → f.interface_ = (match h with | .continuous => 0 | .stepped => 1 | .switched => 2)) →
    (f.mask.getLsbD 1 = false → h = s.bus.posts[n].heater) →
    (f.mask.getLsbD 2 = true → feed = min 10000 (max 1000 f.feedLimit) / 100 * 100) →
    (f.mask.getLsbD 2 = false → feed = s.bus.posts[n].feedLimit) →
    (f.mask.getLsbD 3 = true → f.pollMode = (match q with | .latent => 0 | .direct => 1)) →
    (f.mask.getLsbD 3 = false → q = s.bus.posts[n].pollMode) →
    ((s.bus.posts[n].state = .occupied ∨ s.bus.posts[n].state = .bound) →
      h = s.bus.posts[n].heater ∧ feed = s.bus.posts[n].feedLimit) →
    t = s.replied (.setPost f) tag .done (f.mask.getLsbD 2 && feed ≠ f.feedLimit) [] →
    p = { s.bus.posts[n] with heater := h, feedLimit := feed, pollMode := q } →
    (∀ a : Arbiter, f.service = 0 → p.inService = true →
      ((∃ note, s.arbiter.inFlight = some (.bind n note) ∧
          a = { s.arbiter with inFlight := some (.bind n { note with serviceOut := true }) }) ∨
        (∀ note, s.arbiter.inFlight ≠ some (.bind n note)) ∧ a = s.arbiter) →
      exec (.setPost tag f) s = .next (State.finish { t with
        arbiter := a
        bus := { s.bus with
          posts := s.bus.posts.set n { p with
            inService := false, state := .out, recorded := 0, current := Report.none, held := PendingReport.none
            age := 0, silence := 0, silent := false, baseline := none, claim := false, condition := .none
            finalOwed := decide (p.sent ≠ some 0) }
          queue := s.bus.queue ++
            (match p.state, s.store.table[n] with
            | .bound, some k => [.unbind n k .serviceOut]
            | _, _ => []) } })) ∧
    (f.service = 1 → p.inService = false → s.plug[n].filtered = .low →
      exec (.setPost tag f) s = .next (State.finish { t with
        bus := { s.bus with
          posts := s.bus.posts.set n { p with
            inService := true, state := .empty, sent := none, claim := true, finalOwed := false, age := 0
            silence := 0 } } })) ∧
    (f.service = 1 → p.inService = false → s.plug[n].filtered = .high →
      exec (.setPost tag f) s = .next (State.finish { t with
        bus := { s.bus with
          posts := s.bus.posts.set n { p with
            inService := true, state := .occupied, sent := none, claim := true, finalOwed := false, age := 0
            silence := 0, current := { p.current with vehicle := 0, cabin := none }, held := PendingReport.none
            baseline := none, fetchMark := false }
          exchange := s.bus.exchange.map (fun x => if x.post = n then { x with plugInSince := true } else x) }
        attention := { s.attention with
          posts := s.attention.posts.set n { s.attention.posts[n] with pluggedIn := true } } })) ∧
    ((f.service = 0 ∧ p.inService = false) ∨ (f.service = 1 ∧ p.inService = true) →
      exec (.setPost tag f) s = .next (State.finish { t with
        bus := { s.bus with posts := s.bus.posts.set n p } }))

/-- SET CLASS, CLEAR CLASS and READ CLASS. SET CLASS is held while a round is in flight; otherwise it is refused with IN
USE when it moves Pmax or Pmin of a class some HEATING or HOLDING order uses, and else stores the clamped parameters
and sets replan pending. CLEAR CLASS undefines a class no live order names and is IN USE otherwise. READ CLASS
returns the entry. A class above 15 is BAD FIELD. Rules: R97 to R102. The model's own choices it rests on: log entry
4. -/
def Obligations.ClassRequests : Prop :=
  (∀ (s : State) (tag : Byte) (f : SetClassFields), s.ready →
     (15 < f.cls → exec (.setClass tag f) s = .next (State.finish (s.replied (.setClass f) tag .badField false []))) ∧
     (∀ c : Fin 16, f.cls = c → s.planner.round.isSome → exec (.setClass tag f) s = .next (State.finish
       { s with link := { s.link with inProgress := some { request := .setClass f, tag := tag, stage := .held } } })) ∧
     (∀ (c : Fin 16) (x : ClassParams), f.cls = c → s.planner.round = none →
       x = { c := min 200 (max 10 f.c), g := min 200 (max 5 f.g), pmax := min 10000 (max 500 f.pmax) / 100 * 100
             pmin := min f.pmin (min 10000 (max 500 f.pmax) / 100 * 100), h := min 64 (max 16 f.h), m := min 30 f.m } →
       exec (.setClass tag f) s = .next (State.finish
         (if s.classes[c].params.any (fun p => p.pmax ≠ x.pmax ∨ p.pmin ≠ x.pmin) = true ∧
             s.classes[c].users.any
               (fun n => (s.store.dir n).state = some .heating ∨ (s.store.dir n).state = some .holding) = true then
           s.replied (.setClass f) tag .inUse false []
         else
           { s.replied (.setClass f) tag .done
               (x ≠ { c := f.c, g := f.g, pmax := f.pmax, pmin := f.pmin, h := f.h, m := f.m }) [] with
             classes := s.classes.set c { s.classes[c] with params := some x }
             planner := { s.planner with replan := true } })))) ∧
  (∀ (s : State) (tag : Byte) (k : Nat),
     (s.ready →
       (15 < k → exec (.clearClass tag k) s = .next (State.finish (s.replied (.clearClass k) tag .badField false []))) ∧
       (∀ c : Fin 16, k = c → exec (.clearClass tag k) s = .next (State.finish
         (if s.classes[c].users = [] then
           { s.replied (.clearClass k) tag .done false [] with
             classes := s.classes.set c { params := none, users := [] } }
         else s.replied (.clearClass k) tag .inUse false [])))) ∧
     (s.ready →
       (15 < k → exec (.readClass tag k) s = .next (State.finish (s.replied (.readClass k) tag .badField false []))) ∧
       (∀ (c : Fin 16), k = c →
         (∀ p, s.classes[c].params = some p → exec (.readClass tag k) s = .next (State.finish
           (s.replied (.readClass k) tag .done false
             [byte k, 1, byte p.c, byte p.g, byte (p.pmax / 256), byte p.pmax, byte (p.pmin / 256), byte p.pmin
             , byte p.h, byte p.m, byte s.classes[c].users.length]))) ∧
         (s.classes[c].params = none → exec (.readClass tag k) s = .next (State.finish
           (s.replied (.readClass k) tag .done false
             [byte k, 0, 0, 0, 0, 0, 0, 0, 0, 0, byte s.classes[c].users.length]))))))

/-- READ ATTENTION, named and unnamed, its reply byte by byte, and what each flag follows. The named form returns the
source it names, or BAD FIELD above 31; the unnamed form returns the lowest-numbered source that is pending and
enabled, or the reply with 0xFF and zeros. The eight bytes of a source are its number, its flags, pending and
enabled, the number of sources pending and enabled, and its detail: mode, forced mode and autonomy of source 1, the
last dropped change of source 4, state and last call code of a post. Each flag is given by the event or the
condition it follows. Rules: R156, R157, R158, R160, R180. The model's own choices it rests on: log entries 4 and
20. -/
def Obligations.AttentionReads : Prop :=
  (∀ (s : State) (tag : Byte) (image : Fin 32 → List Byte),
     (∀ n : Fin 32, image n =
       [ byte n, s.flags n, (if s.sourcePending n then 1 else 0) + (if s.sourceEnabled n then 2 else 0)
       , byte ((List.finRange 32).filter (fun m => s.sourcePending m && s.sourceEnabled m)).length ] ++
       (if n = 1 then
         [ (match s.supply.mode with | .normal => 0 | .limited => 1 | .shed => 2 | .restoring => 3 : Byte)
         , (match s.supply.forced with | .none => 0 | .limited => 1 | .shed => 2 : Byte)
         , if s.link.autonomy then 1 else 0, 0 ]
       else if n = 4 then
         match s.attention.dropped with
         | none => [0xFF, 0xFF, 0, 0]
         | some d => [byte d.change.handle.slot, byte d.change.handle.gen, d.change.code, d.reason.code]
       else if h : 8 ≤ n.val then
         [ (match s.bus.posts[n.val - 8].state with | .out => 0 | .empty => 1 | .occupied => 2 | .bound => 3 : Byte)
         , (match s.bus.posts[n.val - 8].lastCall with | .none => 0 | .leaving => 1 | .help => 2 : Byte), 0, 0 ]
       else [0, 0, 0, 0])) → s.ready →
     (∀ k : Nat, 31 < k → exec (.readAttention tag (some k)) s = .next (State.finish
       (s.replied (.readAttention (some k)) tag .badField false []))) ∧
     (∀ n : Fin 32, exec (.readAttention tag (some n.val)) s = .next (State.finish
       (s.replied (.readAttention (some n.val)) tag .done false (image n)))) ∧
     (∀ n : Fin 32, s.sourcePending n → s.sourceEnabled n →
       (∀ m < n, ¬ (s.sourcePending m ∧ s.sourceEnabled m)) →
       exec (.readAttention tag none) s = .next (State.finish
         (s.replied (.readAttention none) tag .done false (image n)))) ∧
     ((∀ n : Fin 32, ¬ (s.sourcePending n ∧ s.sourceEnabled n)) →
       exec (.readAttention tag none) s = .next (State.finish
         (s.replied (.readAttention none) tag .done false [0xFF, 0, 0, 0, 0, 0, 0, 0])))) ∧
  (∀ (s : State) (n : Fin 32),
     (∀ p : Fin 24, n.val = 8 + p.val → s.flags n =
       (if s.attention.posts[p].pluggedIn then 1 else 0) + (if s.attention.posts[p].pluggedOut then 2 else 0) +
         (if s.attention.posts[p].call then 4 else 0) + (if s.bus.posts[p].condition = .unordered then 8 else 0) +
         (if s.bus.posts[p].condition = .conflict then 16 else 0) + (if s.bus.posts[p].silent then 32 else 0)) ∧
     (n.val < 8 → (s.flags n = 0 ∨ s.flags n = 1)) ∧
     (n = 0 → (s.flags n = 1 ↔ ∃ (k : Fin 64) (r : Stored), s.store.slots[k].record = some r ∧ r.order.behind = true)) ∧
     (n = 1 → (s.flags n = 1 ↔ s.attention.modeChange = true)) ∧
     (n = 2 → (s.flags n = 1 ↔ s.attention.meterOverrange = true)) ∧
     (n = 3 → (s.flags n = 1 ↔ s.attention.roundOverrun = true)) ∧
     (n = 4 → (s.flags n = 1 ↔ s.attention.changeDropped = true)) ∧
     (n = 5 → (s.flags n = 1 ↔ ∃ k : Fin 64, (s.store.dir k).occupancy = .closed)) ∧
     (n = 6 → (s.flags n = 1 ↔ ∀ k : Fin 64, (s.store.dir k).occupancy ≠ .free)) ∧
     (n = 7 → (s.flags n = 1 ↔ s.clock.isSet = false)))

/-- SET MASKS, and the attention line (unused enable bits ignored: model's choice, log entry 18). SET MASKS replaces
every mask and every enable, is answered DONE unclamped, and changes no flag; the upper four bits of its enables
byte are ignored (model's choice, log entry 18; that a row may come without its frame is log entry 4). A source is
pending while it holds a flag, level flags being read from their conditions (log entry 20), it is enabled while its
mask is open and its group's enable is on, and the attention line is active exactly while some source is both.
Rules: R156, R159, R162. The model's own choices it rests on: log entries 4, 18 and 20. -/
def Obligations.MasksAndLine : Prop :=
  (∀ (s : State) (tag : Byte) (m : BitVec 32) (g : Byte), s.ready →
    ∃ t, exec (.setMasks tag m g) s = .next t ∧ t = State.finish
        { s.replied (.setMasks m g) tag .done false [] with
          attention := { s.attention with masks := m, groups := g.extractLsb' 0 4 } } ∧
      ∀ n : Fin 32, t.flags n = s.flags n) ∧
  (∀ (s : State) (n : Fin 32),
    (s.sourcePending n = true ↔ s.flags n ≠ 0) ∧
    (s.sourceEnabled n = true ↔
      s.attention.masks.getLsbD n = true ∧ s.attention.groups.getLsbD (n.val / 8) = true)) ∧
  (∀ s : State, s.attentionLine = true ↔ ∃ n : Fin 32, s.sourcePending n = true ∧ s.sourceEnabled n = true)

/-- CLEAR ATTENTION clears the named event flags. CLEAR ATTENTION of a source above 31, or with flags the source does
not have, is BAD FIELD. Otherwise each named event flag is cleared, level flags stay with their conditions, and the
reply carries the source's flags as they stand afterwards. Rules: R161. The model's own choices it rests on: log
entries 4 and 20. -/
def Obligations.ClearAttentionFlags : Prop :=
  ∀ (s : State) (tag : Byte) (k : Nat) (set : Byte), s.ready →
    (31 < k ∨ (k < 8 ∧ 1 < set.toNat) ∨ 63 < set.toNat → exec (.clearAttention tag k set) s = .next (State.finish
      (s.replied (.clearAttention k set) tag .badField false []))) ∧
    (∀ p : Fin 24, k = 8 + p.val → set.toNat ≤ 63 →
      ∃ t e, exec (.clearAttention tag k set) s = .next (State.finish t) ∧
        e = { pluggedIn := s.attention.posts[p].pluggedIn && !set.getLsbD 0
              pluggedOut := s.attention.posts[p].pluggedOut && !set.getLsbD 1
              call := s.attention.posts[p].call && !set.getLsbD 2 } ∧
        t = { s.replied (.clearAttention k set) tag .done false [t.postFlags p] with
              attention := { s.attention with posts := s.attention.posts.set p e } }) ∧
    (k < 8 → set.toNat ≤ 1 →
      ∃ t, exec (.clearAttention tag k set) s = .next (State.finish t) ∧
        t = { s.replied (.clearAttention k set) tag .done false [if t.siteFlag k then 1 else 0] with
              attention := { s.attention with
                modeChange := s.attention.modeChange && !(k = 1 && set = 1)
                meterOverrange := s.attention.meterOverrange && !(k = 2 && set = 1)
                roundOverrun := s.attention.roundOverrun && !(k = 3 && set = 1)
                changeDropped := s.attention.changeDropped && !(k = 4 && set = 1) } })

/-- CREATE_ACCESS refuses or stores the order. The create access repeats PLACE's checks and refuses with NO CLOCK, PAST,
DUPLICATE, VEHICLE FULL or TABLE FULL. Otherwise the lowest FREE slot holds the new PENDING record with its clamps,
the vehicle index and the class's user set take it in, binding attempts are triggered for its vehicle, and the reply
is DONE with the handle. The attempts: one, in ascending post order, at each in-service OCCUPIED post that is not
SILENT, shows that vehicle number and has no attempt waiting. The user set gains the slot and keeps every other.
Rules: R8, R9, R10, R31, R32, R54, R79, R84, R85, R97. The model's own choices it rests on: log entries 5, 10 and
11. -/
def Obligations.CreateAccess : Prop :=
  (∀ (s : State) (f : PlaceFields) (tag : Byte), s.serves (.create f) (.place f) tag →
     (s.clock.isSet = false →
       exec .createAccess s = .next (State.finish (s.completed.replied (.place f) tag .noClock false []))) ∧
     (s.clock.isSet = true → f.vehicle ≠ 0 → f.vehicle ≤ 65534 → f.tier ≤ 2 → f.departure ≤ 10079 →
       (∃ c : Fin 16, f.cls = c ∧ s.classes[c].params ≠ none) → (f.presence.getLsbD 0 = true → f.earliest ≤ 10079) →
       (isBehind s.clock.minute f.departure = true →
         exec .createAccess s = .next (State.finish (s.completed.replied (.place f) tag .past false []))) ∧
       (isBehind s.clock.minute f.departure = false →
         ((∃ e ∈ s.store.vehicleEntries f.vehicle, e.departure = f.departure) →
           exec .createAccess s = .next (State.finish (s.completed.replied (.place f) tag .duplicate false []))) ∧
         ((∀ e ∈ s.store.vehicleEntries f.vehicle, e.departure ≠ f.departure) →
           4 ≤ (s.store.vehicleEntries f.vehicle).length →
           exec .createAccess s = .next (State.finish (s.completed.replied (.place f) tag .vehicleFull false []))) ∧
         ((∀ e ∈ s.store.vehicleEntries f.vehicle, e.departure ≠ f.departure) →
           (s.store.vehicleEntries f.vehicle).length < 4 → (∀ n, (s.store.dir n).occupancy ≠ .free) →
           exec .createAccess s = .next (State.finish (s.completed.replied (.place f) tag .tableFull false [])))))) ∧
  (∀ (s : State) (f : PlaceFields) (tag : Byte) (c : Fin 16) (tier : Tier) (n : Fin 64) (e : Option Nat) (o : Order)
     (clamped : Bool),
     s.serves (.create f) (.place f) tag → s.clock.isSet = true → 1 ≤ f.vehicle → f.vehicle ≤ 65534 →
     f.tier = (match tier with | .firstOut => 0 | .regular => 1 | .flexible => 2) →
     f.departure ≤ 10079 → f.cls = c → s.classes[c].params ≠ none →
     (f.presence.getLsbD 0 = true → f.earliest ≤ 10079) → isBehind s.clock.minute f.departure = false →
     (∀ x ∈ s.store.vehicleEntries f.vehicle, x.departure ≠ f.departure) →
     (s.store.vehicleEntries f.vehicle).length < 4 →
     (s.store.dir n).occupancy = .free → (∀ m < n, (s.store.dir m).occupancy ≠ .free) →
     e = (if f.presence.getLsbD 0 = true then
           some (if 0 ≤ aheadMinutes s.clock.minute f.earliest ∧
               aheadMinutes s.clock.minute f.departure < aheadMinutes s.clock.minute f.earliest then f.departure
             else f.earliest)
         else none) →
     o = { handle := ⟨n, (s.store.dir n).generation⟩, vehicle := f.vehicle, departure := f.departure
           target := min 280 (max 100 f.target), cls := c, tier := tier, state := .pending, earliest := e
           hold := if f.presence.getLsbD 1 = true then some (min 60 f.hold) else none
           boundPost := none, stall := none, outcome := none, estimate := none, grant := 0, short := false
           behind := false, reached := none, energy := 0 } →
     (clamped = false ↔ o.target = f.target ∧ (f.presence.getLsbD 0 = true → e = some f.earliest) ∧
       (f.presence.getLsbD 1 = true → f.hold ≤ 60)) →
     exec .createAccess s = .next (State.finish
       { s.completed.replied (.place f) tag .done clamped [byte n, byte (s.store.dir n).generation] with
         store := s.store.create s.clock.minute n o
         classes := addUser s.classes c n
         bus := s.bus.orderPending f.vehicle })) ∧
  ((∀ (b : Bus) (v : Nat), ∃ l : List (Fin 24), b.orderPending v = { b with queue := b.queue ++ l.map .bind } ∧
      l.Pairwise (fun x y => x < y) ∧
      ∀ q, q ∈ l ↔ PostAccess.bind q ∉ b.queue ∧ b.posts[q].inService = true ∧ b.posts[q].state = .occupied ∧
        b.posts[q].silent = false ∧ b.posts[q].current.vehicle = v ∧ v ≠ 0) ∧
   (∀ (cs : Vector ClassEntry 16) (c : Fin 16) (n : Fin 64), ∃ users : List (Fin 64),
      addUser cs c n = cs.set c { params := cs[c].params, users := users } ∧
      (∀ m, m ∈ users ↔ m = n ∨ m ∈ cs[c].users) ∧
      (cs[c].users.Pairwise (fun x y => x < y) → users.Pairwise (fun x y => x < y))))

/-- AMEND_ACCESS refuses or amends the record. The amend access ends with the first refusal that applies (unknown
handle, CLOSED, damage, LOCKED, BAD FIELD, PAST, NO CLASS, DUPLICATE, VEHICLE FULL), is DONE without a change when
its mask names nothing, and otherwise writes the record, moves the index entry and the user set as the named fields
require, sets replan pending when the estimate or the ranking is concerned, and triggers attempts for a new vehicle
number. The order leaves every class's user set but that of the named class. After it the port goes on as
ChangesUnposted gives. Rules: R11, R12, R13, R29, R32, R84, R97, R169. The model's own choices it rests on: log
entries 5, 9, 10, 11, 17 and 18. -/
def Obligations.AmendAccess : Prop :=
  (∀ (s : State) (f : AmendFields) (k : State → Status → Bool → List Byte → State), s.ends (.amend f) k →
     (s.store.rawVerdict f.handle = .unknown →
       exec .amendAccess s = .next (State.finishLink (k s.completed .unknownHandle false []))) ∧
     (s.store.rawVerdict f.handle = .closed →
       exec .amendAccess s = .next (State.finishLink (k s.completed .closed false []))) ∧
     ∀ h : Handle, h.raw = f.handle → s.store.verdict h = .live →
       (s.store.readOrder h.slot = none →
         exec .amendAccess s = .next (State.finishLink (k (s.completed.damaged h) .closed false []))) ∧
       ∀ o o' : Order, s.store.readOrder h.slot = some o → o' = o.amend s.clock.minute f →
         exec .amendAccess s = .next (State.finishLink
           (if AmendFields.locked f o.state then k s.completed .locked false []
           else if AmendFields.badField f then k s.completed .badField false []
           else if ∃ d ∈ f.departure?, isBehind s.clock.minute d then k s.completed .past false []
           else if ∃ c ∈ f.cls?, s.classUndefined c then k s.completed .noClass false []
           else if ∃ e ∈ s.store.vehicleEntries o'.vehicle, e.departure = o'.departure ∧ e.handle ≠ h then
             k s.completed .duplicate false []
           else if f.vehicle?.isSome ∧
               4 ≤ ((s.store.vehicleEntries f.vehicle).filter (fun e => e.handle ≠ h)).length then
             k s.completed .vehicleFull false []
           else if f.mask.extractLsb' 0 9 = 0 then k s.completed .done false [byte h.slot, byte h.gen]
           else
             k { s.completed with
                 store :=
                   if f.departure?.isSome ∨ f.vehicle?.isSome then
                     ((s.store.writeOrder h.slot o').indexRemove o.vehicle h).indexInsert s.clock.minute o'.vehicle
                       { handle := h, departure := o'.departure }
                   else s.store.writeOrder h.slot o'
                 classes :=
                   if f.cls?.isSome then addUser (dropUser s.classes h.slot) o'.cls h.slot else s.classes
                 planner :=
                   if f.departure?.isSome ∨ f.target?.isSome ∨ f.cls?.isSome ∨ f.tier?.isSome ∨ f.setEarliest?.isSome ∨
                       f.clearsEarliest ∨ o'.earliest ≠ o.earliest then { s.planner with replan := true }
                   else s.planner
                 bus := if f.vehicle?.isSome then s.bus.orderPending f.vehicle else s.bus }
               .done (amendClamped o s.clock.minute f) [byte h.slot, byte h.gen]))) ∧
  (∀ (cs : Vector ClassEntry 16) (c : Fin 16) (n : Fin 64),
     (dropUser cs n)[c] = { params := cs[c].params, users := cs[c].users.filter (fun m => m ≠ n) })

/-- WITHDRAW_ACCESS closes, FREE_ACCESS frees. The withdraw access closes a live order as WITHDRAWN, refuses an unknown
or closed handle, and answers CLOSED for a record it finds damaged. The free access frees a closed slot, whose
generation advances by one modulo 256 and which keeps nothing else, refuses an unknown or live handle, and leaves
every other slot, the index and the table. After either the port goes on as ChangesUnposted gives. Rules: R14, R16,
R24, R26, R29. The model's own choices it rests on: log entries 5, 11 and 17. -/
def Obligations.WithdrawAndFree : Prop :=
  (∀ (s : State) (r : RawHandle) (k : State → Status → Bool → List Byte → State), s.ends (.withdraw r) k →
     (s.store.rawVerdict r = .unknown →
       exec .withdrawAccess s = .next (State.finishLink (k s.completed .unknownHandle false []))) ∧
     (s.store.rawVerdict r = .closed →
       exec .withdrawAccess s = .next (State.finishLink (k s.completed .closed false []))) ∧
     ∀ h : Handle, h.raw = r → s.store.verdict h = .live →
       (s.store.readOrder h.slot = none →
         exec .withdrawAccess s = .next (State.finishLink (k (s.completed.damaged h) .closed false []))) ∧
       ∀ o : Order, s.store.readOrder h.slot = some o →
         exec .withdrawAccess s = .next (State.finishLink (k (s.completed.closeOrder h o .withdrawn) .done false
           [byte h.slot, byte h.gen]))) ∧
  (∀ (s : State) (r : RawHandle) (k : State → Status → Bool → List Byte → State), s.ends (.free r) k →
     (s.store.rawVerdict r = .unknown →
       exec .freeAccess s = .next (State.finishLink (k s.completed .unknownHandle false []))) ∧
     (s.store.rawVerdict r = .live →
       exec .freeAccess s = .next (State.finishLink (k s.completed .notClosed false []))) ∧
     ∀ h : Handle, h.raw = r → s.store.verdict h = .closed → ∃ st : Store,
       exec .freeAccess s = .next (State.finishLink (k { s.completed with store := st } .done false
         [byte h.slot, byte h.gen])) ∧
       st.slots[h.slot].record = none ∧ (st.dir h.slot).occupancy = .free ∧ (st.dir h.slot).damaged = false ∧
       (st.dir h.slot).state = none ∧ (st.dir h.slot).vehicle = none ∧ (st.dir h.slot).boundPost = none ∧
       (st.dir h.slot).generation = (h.gen + 1) % 256 ∧
       (∀ n, n ≠ h.slot → st.slots[n] = s.store.slots[n]) ∧ st.index = s.store.index ∧ st.table = s.store.table)

/-- READ_ACCESS and INDEX_READ. A record read answers the 39 bytes of the record's image, each field given, or its
damaged form, marking a record it finds damaged; its status is the one its request asks for, so that the first
record of a ranking walked again is answered RESTARTED also when it is damaged (model's choice, log entry 36). An
index read answers the 11 bytes of the vehicle's handles: vehicle number, count, handles in list order and 0xFF for
the rest. Rules: R33, R39, R41, R178, R181. The model's own choices it rests on: log entries 5 and 36. -/
def Obligations.ReadAndIndexAccess : Prop :=
  ∀ (s : State) (r : Request) (tag : Byte),
    (∀ (h : Handle) (x : Status), s.serves (.read h x) r tag → s.store.verdict h ≠ .unknown →
      (∀ (o : Order) (image : List Byte), s.store.readOrder h.slot = some o →
        image =
          [ byte o.handle.slot, byte o.handle.gen
          , (if o.earliest = none then 0 else 1) + (if o.hold = none then 0 else 2) +
              (if o.boundPost = none then 0 else 4) + (if o.stall = none then 0 else 8) +
              (if o.reached = none then 0 else 16) + (if o.estimate = none then 0 else 32) +
              (if o.outcome = none then 0 else 64) ] ++
          be16 o.vehicle ++ be16 o.departure ++ beS16 o.target ++
          [ byte o.cls, (match o.tier with | .firstOut => 0 | .regular => 1 | .flexible => 2 : Byte)
          , (match o.state with
            | .pending => 0 | .waiting => 1 | .heating => 2 | .holding => 3 | .stalled => 4 | .closed => 5 : Byte) ] ++
          be16 (o.earliest.getD 0) ++
          [ byte (o.hold.getD 0), (match o.boundPost with | none => 0 | some p => byte p)
          , (match o.stall with
            | none => 0 | some .heaterFault => 1 | some .staleReading => 2 | some .postSilent => 3 : Byte) ] ++
          be16 (o.reached.getD 0) ++
          (match o.estimate with
          | none => List.replicate 12 0
          | some e =>
            be16 e.liftEnergy ++ be16 e.lossPower ++ be16 e.timeToTarget ++ be16 e.latestStart ++ beS16 e.slack ++
              be16 e.request) ++
          be16 o.grant ++
          ([(if o.short then 1 else 0) + (if o.behind then 2 else 0) +
            (match o.estimate with | none => 0 | some e => if e.unreachable then 4 else 0)] : List Byte) ++
          be16 o.energy ++
          (match o.outcome with
          | none => [0, 0, 0]
          | some (y, m) =>
            (match y with | .met => 1 | .late => 2 | .lapsed => 3 | .withdrawn => 4 | .broken => 5 : Byte) :: be16 m) →
        exec .readAccess s = .next (State.finish (s.completed.replied r tag x false image)) ∧ image.length = 39) ∧
      (s.store.readOrder h.slot = none → ∀ image : List Byte,
        image = [byte h.slot, byte h.gen, 0] ++ be16 ((s.store.dir h.slot).vehicle.getD 0) ++ List.replicate 6 0 ++ [5] ++
          List.replicate 21 0 ++ [8, 0, 0, 5, 0, 0] →
        image.length = 39 ∧
        ((s.store.dir h.slot).damaged = true →
          exec .readAccess s = .next (State.finish (s.completed.replied r tag x false image))) ∧
        ((s.store.dir h.slot).damaged = false →
          exec .readAccess s = .next (State.finish ((s.completed.damaged h).replied r tag x false image))))) ∧
    (∀ (v : Nat) (handles : List Handle), s.serves (.index v) r tag →
      handles = (s.store.vehicleEntries v).map IndexEntry.handle → handles.length ≤ 4 →
      exec .indexRead s = .next (State.finish (s.completed.replied r tag .done false
        (be16 v ++ [byte handles.length] ++ handles.flatMap (fun h => [byte h.slot, byte h.gen]) ++
          List.replicate (8 - 2 * handles.length) 0xFF)))) ∧
    (∀ v : Nat, s.serves (.index v) r tag → 4 < (s.store.vehicleEntries v).length → ∃ image : List Byte,
      exec .indexRead s = .next (State.finish (s.completed.replied r tag .done false image)) ∧ image.length = 11)

/-- BIND_ACCESS binds the soonest candidate. A binding access whose tests failed at its presentation changes nothing.
With an order of the vehicle bound elsewhere the post has CONFLICT; with no candidate inside the horizon it has
UNORDERED; otherwise the PENDING order with the fewest ahead-minutes becomes WAITING and bound at the post, with
replan pending and a binding notice, or is closed by damage and the attempt triggered again. Rules: R83 to R90. The
model's own choices it rests on: log entries 5 and 22. -/
def Obligations.BindAccess : Prop :=
  ∀ (s : State) (n : Fin 24) (note : BindNote) (v : Nat), s.arbiter.inFlight = some (.bind n note) →
    (note.vehicle = none → exec .bindAccess s = .next s.completed.finish) ∧
    (note.vehicle = some v → (∃ e ∈ s.store.vehicleEntries v, (s.store.dir e.handle.slot).boundPost ≠ none) →
      exec .bindAccess s = .next (State.finish { s.completed with
        bus := s.bus.modify n (fun p => if p.state = .occupied then { p with condition := .conflict } else p) })) ∧
    (note.vehicle = some v → (∀ e ∈ s.store.vehicleEntries v, (s.store.dir e.handle.slot).boundPost = none) →
      (∀ e ∈ s.store.vehicleEntries v, (s.store.dir e.handle.slot).state = some .pending →
        aheadMinutes s.clock.minute e.departure < 0 ∨ s.site.horizon < aheadMinutes s.clock.minute e.departure) →
      exec .bindAccess s = .next (State.finish { s.completed with
        bus := s.bus.modify n (fun p => if p.state = .occupied then { p with condition := .unordered } else p) })) ∧
    (note.vehicle = some v → (∀ e ∈ s.store.vehicleEntries v, (s.store.dir e.handle.slot).boundPost = none) →
      ∀ e ∈ s.store.vehicleEntries v, (s.store.dir e.handle.slot).state = some .pending →
        0 ≤ aheadMinutes s.clock.minute e.departure → aheadMinutes s.clock.minute e.departure ≤ s.site.horizon →
        (∀ x ∈ s.store.vehicleEntries v, x ≠ e → (s.store.dir x.handle.slot).state = some .pending →
          0 ≤ aheadMinutes s.clock.minute x.departure →
          aheadMinutes s.clock.minute e.departure < aheadMinutes s.clock.minute x.departure) →
        (s.store.readOrder e.handle.slot = none →
          exec .bindAccess s = .next (State.finish { s.completed.damaged e.handle with
            bus := (s.completed.damaged e.handle).bus.trigger (fun q => q = n) })) ∧
        ∀ o : Order, s.store.readOrder e.handle.slot = some o →
          exec .bindAccess s = .next (State.finish { s.completed with
            store := (s.store.writeOrder e.handle.slot
              { o with
                state := .waiting, boundPost := some n, estimate := none, reached := none, grant := 0, short := false
                behind := false, stall := none }).setTable n (some e.handle)
            planner := { s.planner with replan := true }
            bus := s.bus.bindingNotice n e.handle v note }))

/-- The binding notice at a post. A service OUT or a plug-out taken since the presentation presents an unbind. Otherwise
the OCCUPIED post becomes BOUND without a condition or an energy baseline; a SILENT post has a stall presented, and
one whose vehicle number has changed an unbind, each with the grant zeroed. Rules: R35, R90, R91. -/
def Obligations.BindingNotice : Prop :=
  ∀ (b : Bus) (n : Fin 24) (h : Handle) (v : Nat) (note : BindNote),
    (note.serviceOut = true →
      b.bindingNotice n h v note = { b with queue := b.queue ++ [.unbind n h .serviceOut] }) ∧
    (note.serviceOut = false → note.plugOut = true →
      b.bindingNotice n h v note = { b with queue := b.queue ++ [.unbind n h .unplug] }) ∧
    (note.serviceOut = false → note.plugOut = false → b.posts[n].state = .occupied →
      (b.posts[n].silent = true →
        b.bindingNotice n h v note =
          { b.modify n (fun p => { p with state := .bound, condition := .none, baseline := none }.setRecorded 0) with
            queue := b.queue ++ [.stall n h .postSilent] }) ∧
      (b.posts[n].silent = false → b.posts[n].current.vehicle ≠ 0 → b.posts[n].current.vehicle ≠ v →
        b.bindingNotice n h v note =
          { b.modify n (fun p => { p with state := .bound, condition := .none, baseline := none }.setRecorded 0) with
            queue := b.queue ++ [.unbind n h .vehicleChange] }) ∧
      (b.posts[n].silent = false → b.posts[n].current.vehicle = v →
        b.bindingNotice n h v note =
          b.modify n (fun p => { p with state := .bound, condition := .none, baseline := none })))

/-- UNBIND_ACCESS returns the order to PENDING or closes it. An unbinding by service OUT, or with the departure further
ahead than the depart window, returns the order to PENDING; any other closes it with the outcome rule, written out:
MET with a reached minute, else BROKEN when STALLED, LATE when WAITING, HEATING or HOLDING, and LAPSED in a state no
bound order has (PENDING or CLOSED: the model's choice, log entry 24). Rules: R18, R92 to R95. The model's own
choices it rests on: log entries 5 and 24. -/
def Obligations.UnbindAccess : Prop :=
  ∀ (s : State) (n : Fin 24) (h : Handle) (o : Order) (cause : UnbindCause),
    s.arbiter.inFlight = some (.posts (.unbind n h cause)) → s.boundOrder n h o →
    (cause = .serviceOut ∨ s.site.departWindow < aheadMinutes s.clock.minute o.departure →
      exec .unbindAccess s = .next (State.finish (s.completed.returnToPending h o))) ∧
    (cause ≠ .serviceOut → aheadMinutes s.clock.minute o.departure ≤ s.site.departWindow →
      exec .unbindAccess s = .next (State.finish (s.completed.closeOrder h o
        (if o.reached.isSome then .met else if o.state = .stalled then .broken
          else if o.state = .pending ∨ o.state = .closed then .lapsed else .late))))

/-- STALL_ENTRY, STALL_CAUSE_REPLACEMENT, RECOVERY, ADD_ENERGY and ZERO_GRANT_ON_SHED. A stall makes a WAITING, HEATING
or HOLDING order STALLED with its cause, grant 0 and SHORT and BEHIND clear; of a STALLED order it replaces the
cause. A recovery makes a STALLED order WAITING with replan pending and leaves any other. Energy is added up to
65535; a zero-grant access writes grant 0. Rules: R6, R19, R20, R21, R76, R77, R151. The model's own choices it
rests on: log entries 5 and 21. -/
def Obligations.BoundOrderAccesses : Prop :=
  (∀ (s : State) (n : Fin 24) (h : Handle) (o : Order), s.boundOrder n h o →
     (s.store.dir h.slot).state = some o.state →
     (∀ cause : StallCause, s.arbiter.inFlight = some (.posts (.stall n h cause)) →
       (o.state = .waiting ∨ o.state = .heating ∨ o.state = .holding →
         exec .stallEntry s = .next (State.finish { s.completed with
           store := s.store.writeOrder h.slot
             { o with state := .stalled, stall := some cause, grant := 0, short := false, behind := false } })) ∧
       (o.state = .stalled →
         exec .stallCauseReplacement s = .next (State.finish { s.completed with
           store := s.store.writeOrder h.slot { o with stall := some cause } }))) ∧
     (s.arbiter.inFlight = some (.posts (.recover n h)) →
       (o.state = .stalled →
         exec .recovery s = .next (State.finish { s.completed with
           store := s.store.writeOrder h.slot { o with state := .waiting, stall := none, grant := 0 }
           planner := { s.planner with replan := true } })) ∧
       (o.state ≠ .stalled → exec .recovery s = .next s.completed.finish))) ∧
  (∀ (s : State) (n : Fin 24) (h : Handle) (o : Order), s.boundOrder n h o →
     (∀ kj : Nat, s.arbiter.inFlight = some (.posts (.addEnergy n h kj)) →
       exec .addEnergy s = .next (State.finish { s.completed with
         store := s.store.writeOrder h.slot { o with energy := min 65535 (o.energy + kj) } })) ∧
     (s.arbiter.inFlight = some (.posts (.zeroGrant n h)) →
       exec .zeroGrantOnShed s = .next (State.finish { s.completed with
         store := s.store.writeOrder h.slot { o with grant := 0 } })))

/-- POSTS accesses whose target no longer stands, or is damaged. An access on a bound order changes nothing when the
post's entry no longer names the handle or the handle is not live, and closes the order by damage when its record
does not verify. That a stale unbind access leaves entry and post as they are, where R91 and R93 speak of the entry
and the post whatever the result, follows R36 and is the model's choice (log entry 32). Rules: R36, R40. The model's
own choices it rests on: log entries 5, 17, 21 and 32. -/
def Obligations.StaleAndDamagedTargets : Prop :=
  ∀ (s : State) (n : Fin 24) (h : Handle) (c : Instr) (t : State),
    ((∃ cause, c = .unbindAccess ∧ s.arbiter.inFlight = some (.posts (.unbind n h cause))) ∨
      (∃ cause, c = .stallCauseReplacement ∧ s.arbiter.inFlight = some (.posts (.stall n h cause)) ∧
        (s.staleTarget n h ∨ (s.store.dir h.slot).state = some .stalled)) ∨
      (∃ cause, c = .stallEntry ∧ s.arbiter.inFlight = some (.posts (.stall n h cause)) ∧
        (s.staleTarget n h ∨ (s.store.dir h.slot).state ≠ some .stalled)) ∨
      (c = .recovery ∧ s.arbiter.inFlight = some (.posts (.recover n h))) ∨
      (∃ kj, c = .addEnergy ∧ s.arbiter.inFlight = some (.posts (.addEnergy n h kj))) ∨
      (c = .zeroGrantOnShed ∧ s.arbiter.inFlight = some (.posts (.zeroGrant n h)))) →
    (s.staleTarget n h ∧ t = s.completed ∨
      s.store.table[n] = some h ∧ s.store.verdict h = .live ∧ s.store.readOrder h.slot = none ∧
        t = s.completed.damaged h) →
    exec c s = .next t.finish

/-- Writing a record writes its check code and the directory's copies. A write of a record leaves it verifying, with the
directory's copies of state, vehicle and bound post, and leaves every other slot, the index and the table. A create
also makes the slot LIVE and enters the order in its vehicle's list. Rules: R10, R28, R32, R39. The model's own
choices it rests on: log entry 6. -/
def Obligations.RecordWrites : Prop :=
  ∀ (st t : Store) (n : Fin 64) (o : Order) (now : Nat),
    (t = st.writeOrder n o →
      t.slots[n].record = some { order := o, codeError := 0 } ∧
      t.dir n = { st.dir n with state := some o.state, vehicle := some o.vehicle, boundPost := o.boundPost } ∧
      ((st.dir n).damaged = false → t.readOrder n = some o) ∧
      (∀ m, m ≠ n → t.slots[m] = st.slots[m]) ∧ t.index = st.index ∧ t.table = st.table) ∧
    (t = st.create now n o →
      t.slots[n].record = some { order := o, codeError := 0 } ∧
      t.dir n = { st.dir n with
        occupancy := .live, state := some o.state, vehicle := some o.vehicle, boundPost := o.boundPost } ∧
      (∀ m, m ≠ n → t.slots[m] = st.slots[m]) ∧
      t.index = (st.indexInsert now o.vehicle { handle := o.handle, departure := o.departure }).index ∧
      t.table = st.table)

/-- The vehicle index keeps its lists and their order. Inserting and removing keep one nonempty list a vehicle number
and leave other vehicles' lists. A removal drops the handle's entries. An insertion leaves the other entries in
their order, stands after entries with no more ahead-minutes and before one with more, and keeps an ascending list
ascending. Rules: R31, R32. The model's own choices it rests on: log entry 25. -/
def Obligations.VehicleIndexOrder : Prop :=
  ∀ (st : Store) (now v : Nat) (h : Handle) (e : IndexEntry), st.indexSound →
    (st.indexInsert now v e).indexSound ∧ (st.indexRemove v h).indexSound ∧
    (∀ w, w ≠ v → (st.indexInsert now v e).vehicleEntries w = st.vehicleEntries w ∧
      (st.indexRemove v h).vehicleEntries w = st.vehicleEntries w) ∧
    (st.indexRemove v h).vehicleEntries v = (st.vehicleEntries v).filter (fun x => x.handle ≠ h) ∧
    ∃ before after, st.vehicleEntries v = before ++ after ∧
      (st.indexInsert now v e).vehicleEntries v = before ++ e :: after ∧
      (∀ x ∈ before, aheadMinutes now x.departure ≤ aheadMinutes now e.departure) ∧
      (∀ x ∈ after.head?, aheadMinutes now e.departure < aheadMinutes now x.departure) ∧
      ((st.vehicleEntries v).Pairwise (fun x y => aheadMinutes now x.departure ≤ aheadMinutes now y.departure) →
        ((st.indexInsert now v e).vehicleEntries v).Pairwise
          (fun x y => aheadMinutes now x.departure ≤ aheadMinutes now y.departure))

/-- What a close, a return to PENDING and a damage change. Each says the slot's new record and directory entry, the
binding table, the vehicle's list, the user sets, the ranking and the round's rows, the post, and that everything
else is unchanged. Rules: R17, R35, R40, R41, R92, R125. -/
def Obligations.CloseReturnDamage : Prop :=
  (∀ (s t : State) (h : Handle) (o : Order) (x : OrderOutcome), s.store.indexSound → t = s.closeOrder h o x →
     t.store.slots[h.slot] =
       { dir := { s.store.dir h.slot with
           occupancy := .closed, state := some .closed, vehicle := some o.vehicle, boundPost := none }
         record := some
           { order := { o with
               state := .closed, outcome := some (x, s.clock.minute), boundPost := none, stall := none, estimate := none
               grant := 0, short := false, behind := false }
             codeError := 0 } } ∧
     (∀ n, n ≠ h.slot → t.store.slots[n] = s.store.slots[n]) ∧
     (∀ p : Fin 24, t.store.table[p] = if o.boundPost = some p then none else s.store.table[p]) ∧
     (∀ v, t.store.vehicleEntries v =
       if v = o.vehicle then (s.store.vehicleEntries v).filter (fun e => e.handle ≠ h) else s.store.vehicleEntries v) ∧
     (∀ c : Fin 16, t.classes[c] =
       { s.classes[c] with users := s.classes[c].users.filter (fun n => n ≠ h.slot) }) ∧
     t.planner = { s.planner with
       ranking := s.planner.ranking.filter (fun k => k ≠ h)
       round := s.planner.round.map (fun r => { r with
         rows := r.rows.map (fun e => if e.row.handle = h then { e with struck := true } else e) }) } ∧
     t.bus = (match o.boundPost with | none => s.bus | some p => s.bus.unbound p o.vehicle false) ∧
     t.clock = s.clock ∧ t.arbiter = s.arbiter ∧ t.link = s.link ∧ t.plug = s.plug ∧ t.supply = s.supply ∧
     t.site = s.site ∧ t.attention = s.attention ∧ t.pending = s.pending) ∧
  (∀ (s t : State) (h : Handle) (o : Order) (n : Fin 24), o.boundPost = some n → t = s.returnToPending h o →
     t.store.slots[h.slot] =
       { dir := { s.store.dir h.slot with state := some .pending, vehicle := some o.vehicle, boundPost := none }
         record := some
           { order := { o with
               state := .pending, boundPost := none, stall := none, estimate := none, reached := none, grant := 0
               short := false, behind := false }
             codeError := 0 } } ∧
     (∀ m, m ≠ h.slot → t.store.slots[m] = s.store.slots[m]) ∧
     (∀ p : Fin 24, t.store.table[p] = if p = n then none else s.store.table[p]) ∧
     t.store.index = s.store.index ∧
     t.planner = { s.planner with
       replan := true
       ranking := s.planner.ranking.filter (fun k => k ≠ h)
       round := s.planner.round.map (fun r => { r with
         rows := r.rows.map (fun e => if e.row.handle = h then { e with struck := true } else e) }) } ∧
     t.bus = s.bus.unbound n o.vehicle true ∧ t.classes = s.classes ∧
     t.clock = s.clock ∧ t.arbiter = s.arbiter ∧ t.link = s.link ∧ t.plug = s.plug ∧ t.supply = s.supply ∧
     t.site = s.site ∧ t.attention = s.attention ∧ t.pending = s.pending) ∧
  (∀ (s t : State) (h : Handle) (d : DirEntry), t = s.damaged h → d = s.store.dir h.slot →
     (∀ n, n ≠ h.slot → t.store.slots[n] = s.store.slots[n]) ∧
     (d.occupancy ≠ .live → t.store.slots[h.slot] = { dir := { d with damaged := true }, record := none } ∧
       t.store.index = s.store.index ∧ t.store.table = s.store.table ∧ t.classes = s.classes ∧ t.planner = s.planner ∧
       t.bus = s.bus) ∧
     (∀ v, d.occupancy = .live → d.vehicle = some v → s.store.indexSound →
       t.store.slots[h.slot] =
         { dir := { d with occupancy := .closed, damaged := true, state := some .closed, boundPost := none }
           record := none } ∧
       (∀ p : Fin 24, t.store.table[p] = if d.boundPost = some p then none else s.store.table[p]) ∧
       (∀ w, t.store.vehicleEntries w =
         if w = v then (s.store.vehicleEntries w).filter (fun e => e.handle ≠ h) else s.store.vehicleEntries w) ∧
       (∀ c : Fin 16, t.classes[c] =
         { s.classes[c] with users := s.classes[c].users.filter (fun n => n ≠ h.slot) }) ∧
       t.planner = { s.planner with
         ranking := s.planner.ranking.filter (fun k => k ≠ h)
         round := s.planner.round.map (fun r => { r with
           rows := r.rows.map (fun e => if e.row.handle = h then { e with struck := true } else e) }) } ∧
       t.bus = (match d.boundPost with | none => s.bus | some p => s.bus.unbound p v false)) ∧
     t.clock = s.clock ∧ t.arbiter = s.arbiter ∧ t.link = s.link ∧ t.plug = s.plug ∧ t.supply = s.supply ∧
     t.site = s.site ∧ t.attention = s.attention ∧ t.pending = s.pending)

/-- The unbinding notice, and the reduction claim of a recorded grant. An unbinding zeroes the post's grant, removes its
baseline, makes a BOUND post OCCUPIED, changes no other post, and presents binding attempts, ascending, at the post
and at qualifying posts with the vehicle's number as R84 gives. A recorded grant below the sent grant sets the
reduction claim; a raise to it or above clears it. Rules: R35, R69, R81, R84, R85. The model's own choices it rests
on: log entry 13. -/
def Obligations.EnginePostNotices : Prop :=
  (∀ (b c : Bus) (n : Fin 24) (v : Nat) (pending : Bool), c = b.unbound n v pending →
     c.posts[n] = { b.posts[n].setRecorded 0 with
       baseline := none, state := if b.posts[n].state = .bound then .occupied else b.posts[n].state } ∧
     (∀ m, m ≠ n → c.posts[m] = b.posts[m]) ∧ c.rotation = b.rotation ∧ c.exchange = b.exchange ∧
     ∃ l : List (Fin 24), c.queue = b.queue ++ l.map .bind ∧ l.Pairwise (fun x y => x < y) ∧
       ∀ q, q ∈ l ↔ PostAccess.bind q ∉ b.queue ∧
         (c.posts[q].inService = true ∧ c.posts[q].state = .occupied ∧ c.posts[q].silent = false ∧
           c.posts[q].current.vehicle ≠ 0) ∧
         (q = n ∨ c.posts[q].current.vehicle = v ∧ (pending = true ∨ c.posts[q].condition = .conflict))) ∧
  (∀ (p q : Post) (w : Nat), q = p.setRecorded w →
     q = { p with recorded := w, claim := q.claim } ∧
     (p.inService = false → q.claim = false) ∧
     (p.inService = true → p.sent = none → q.claim = p.claim) ∧
     (∀ g, p.inService = true → p.sent = some g →
       (w < g → q.claim = true) ∧ (g ≤ w → p.recorded < w → q.claim = false) ∧
       (g ≤ w → w ≤ p.recorded → q.claim = p.claim)))

/-- The arbiter serves in cyclic order from its pointer what each requester presents. With an access in flight, or
nothing presented, the arbiter changes nothing. Otherwise it serves the first requester after its pointer in the
order LINK, POSTS, PLAN that presents an access, moves the pointer to it, takes the access from its list and changes
nothing else. LINK presents the access of its oldest waiting change, and with none waiting that of the request in
progress; POSTS the head of the engine's list, a binding attempt with the post's vehicle number when the post is in
service, OCCUPIED, not SILENT, names a vehicle and has no order bound, and with none otherwise; PLAN the head of the
list of the round's phase. Rules: R37, R38, R86, R120, R122, R124, R167, R169. The model's own choices it rests on:
log entry 5. -/
def Obligations.ArbiterServes : Prop :=
  (∀ s t : State, t = s.settle →
     (s.arbiter.inFlight ≠ none → t = s) ∧
     (s.presented .link = none → s.presented .posts = none → s.presented .plan = none → t = s) ∧
     (∀ (r : Requester) (a : Access), s.arbiter.inFlight = none → s.presented r = some a →
       (r = s.arbiter.pointer.next ∨
         s.presented s.arbiter.pointer.next = none ∧
           (r = s.arbiter.pointer.next.next ∨
             s.presented s.arbiter.pointer.next.next = none ∧ r = s.arbiter.pointer)) →
       t.arbiter = { pointer := r, inFlight := some a } ∧
       t.bus = { s.bus with queue := if r = .posts then s.bus.queue.tail else s.bus.queue } ∧
       t.planner =
         (if r = .plan then
           { s.planner with round := s.planner.round.map (fun x => { x with phase := x.phase.tail }) }
         else s.planner) ∧
       t.clock = s.clock ∧ t.store = s.store ∧ t.link = s.link ∧ t.plug = s.plug ∧ t.classes = s.classes ∧
       t.supply = s.supply ∧ t.site = s.site ∧ t.attention = s.attention ∧ t.pending = s.pending) ∧
     (Requester.link.next = .posts ∧ Requester.posts.next = .plan ∧ Requester.plan.next = .link)) ∧
  (∀ s : State,
     (∀ (c : Change) (rest : List Change), s.link.posting = c :: rest → s.presented .link = some (.link
       (match c with | .amend f => .amend f | .withdraw h => .withdraw h | .release h => .free h))) ∧
     (s.link.posting = [] →
       (∀ r tag a, s.link.inProgress = some { request := r, tag := tag, stage := .access a } →
         s.presented .link = some (.link a)) ∧
       ((∀ p a, s.link.inProgress = some p → p.stage ≠ .access a) → s.presented .link = none)) ∧
     (s.bus.queue = [] → s.presented .posts = none) ∧
     (∀ (n : Fin 24) (rest : List PostAccess), s.bus.queue = .bind n :: rest → s.presented .posts = some (.bind n
       { vehicle :=
           if s.bus.posts[n].inService = true ∧ s.bus.posts[n].state = .occupied ∧ s.bus.posts[n].silent = false ∧
               s.bus.posts[n].current.vehicle ≠ 0 ∧ s.store.table[n] = none then some s.bus.posts[n].current.vehicle
           else none
         plugOut := false, serviceOut := false })) ∧
     (∀ (a : PostAccess) (rest : List PostAccess), s.bus.queue = a :: rest → (∀ n, a ≠ .bind n) →
       s.presented .posts = some (.posts a)) ∧
     (s.planner.round = none → s.presented .plan = none) ∧
     (∀ r : Round, s.planner.round = some r →
       (∀ n h rest, r.phase = .snapshot ((n, h) :: rest) → s.presented .plan = some (.plan (.snapshot n h))) ∧
       (∀ h rest, r.phase = .sweep (h :: rest) → s.presented .plan = some (.plan (.sweep h))) ∧
       (∀ n rest, r.phase = .writeBack (n :: rest) → s.presented .plan = some (.plan (.writeBack n))) ∧
       (r.phase = .snapshot [] ∨ r.phase = .sweep [] ∨ r.phase = .compute ∨ r.phase = .writeBack [] →
         s.presented .plan = none) ∧
       (∀ n h rest, (Phase.snapshot ((n, h) :: rest)).tail = .snapshot rest) ∧
       (∀ h rest, (Phase.sweep (h :: rest)).tail = .sweep rest) ∧
       (∀ n rest, (Phase.writeBack (n :: rest)).tail = .writeBack rest)))

/-- ROUND_TIMER_EXPIRY, and how a round starts. The expiry of the round timer starts a round, or sets ROUND OVERRUN when
one is in flight; a replan pending starts one after an event. A start reads the round's settings, marks every post,
and presents the bound orders in the ranking's order and then by post, then the sweep of PENDING slots ascending.
Rules: R116 to R121. The model's own choices it rests on: log entries 2 and 24. -/
def Obligations.RoundsStart : Prop :=
  (∀ s : State,
     (s.planner.round = none → exec .roundTimerExpiry s = .next s.startRound.settle) ∧
     (s.planner.round ≠ none → exec .roundTimerExpiry s = .next (State.settle
       { s with
         planner := { s.planner with timer := 0 }, attention := { s.attention with roundOverrun := true } })) ∧
     (∀ t : State, t = s.finish →
       (s.planner.round = none → s.planner.replan = true → t = s.startRound.settle) ∧
       (s.planner.round ≠ none ∨ s.planner.replan = false → t = s.settle))) ∧
  (∀ s t : State, t = s.startRound → ∃ (r : Round) (ranked others : List (Fin 24 × Handle)) (pendings : List (Fin 64)),
     t.planner = { timer := 0, replan := false, round := some r, ranking := s.planner.ranking } ∧
     (r.now = s.clock.minute ∧ r.startLead = s.site.startLead ∧ r.grace = s.site.grace ∧
       r.fallback = s.site.fallback ∧ r.rows = []) ∧
     (∀ n : Fin 24, t.bus.posts[n] = { s.bus.posts[n] with roundMark := true }) ∧
     (t.bus.rotation = s.bus.rotation ∧ t.bus.exchange = s.bus.exchange ∧ t.bus.queue = s.bus.queue) ∧
     (ranked.map Prod.snd).Sublist s.planner.ranking ∧ others.Pairwise (fun x y => x.1 < y.1) ∧
     (∀ x ∈ others, x.2 ∉ s.planner.ranking) ∧ (∀ x ∈ ranked ++ others, s.store.table[x.1] = some x.2) ∧
     (∀ (n : Fin 24) (h : Handle), s.store.table[n] = some h → ∃ m, (m, h) ∈ ranked ++ others) ∧
     pendings.Pairwise (fun x y => x < y) ∧ (∀ n, n ∈ pendings ↔ (s.store.dir n).state = some .pending) ∧
     r.phase =
       (if ranked ++ others ≠ [] then .snapshot (ranked ++ others)
       else if pendings ≠ [] then .sweep (pendings.map (fun n => ⟨n, (s.store.dir n).generation⟩)) else .compute) ∧
     t.clock = s.clock ∧ t.store = s.store ∧ t.arbiter = s.arbiter ∧ t.link = s.link ∧ t.plug = s.plug ∧
     t.classes = s.classes ∧ t.supply = s.supply ∧ t.site = s.site ∧ t.attention = s.attention ∧ t.pending = s.pending)

/-- SNAPSHOT_READ and SWEEP_READ. A snapshot read adds a row with the order, class and post values of the moment, or
none for a stale or damaged target. A sweep read closes as LAPSED a PENDING order whose departure reads as behind by
more than the grace, and BROKEN a PENDING one whose record is damaged; an order that the directory shows as no
longer PENDING is left without a read of its record (model's choice, log entry 35). The round then advances to its
next phase when its list is empty. Rules: R36, R56, R120, R121, R122. The model's own choices it rests on: log
entries 5 and 35. -/
def Obligations.RoundReads : Prop :=
  (∀ (s : State) (n : Fin 24) (h : Handle) (r : Round), s.arbiter.inFlight = some (.plan (.snapshot n h)) →
     s.planner.round = some r →
     (s.staleTarget n h → exec .snapshotRead s = .next (State.finish (State.advanceRound s.completed))) ∧
     (s.store.table[n] = some h → s.store.verdict h = .live → s.store.readOrder h.slot = none →
       exec .snapshotRead s = .next (State.finish (State.advanceRound (s.completed.damaged h)))) ∧
     (∀ (o : Order) (p : ClassParams), s.boundOrder n h o → s.classes[o.cls].params = some p →
       exec .snapshotRead s = .next (State.finish (State.advanceRound { s.completed with
         planner := { s.planner with
           round := some { r with
             rows := r.rows ++
               [{ row :=
                   { post := n, handle := h, state := o.state, vehicle := o.vehicle, departure := o.departure
                     target := o.target, cls := o.cls, tier := o.tier, earliest := o.earliest, hold := o.hold
                     reached := o.reached, params := p, inService := s.bus.posts[n].inService
                     heater := s.bus.posts[n].heater, feedLimit := s.bus.posts[n].feedLimit
                     silent := s.bus.posts[n].silent, report := s.bus.posts[n].current, age := s.bus.posts[n].age
                     sent := s.bus.posts[n].sent }
                  struck := false, kept := false, result := none }] } } }))) ∧
     (∀ (t : State) (r : Round), t.planner.round = some r →
       t.advanceRound = { t with
         planner := { t.planner with
           round := some
             (if (r.phase = .snapshot [] ∧ ∀ n, (t.store.dir n).state ≠ some .pending) ∨ r.phase = .sweep [] then
               { r with phase := .compute }
             else if r.phase = .snapshot [] then { r with phase := .sweep (sweepList t.store) }
             else r) } })) ∧
  (∀ (s : State) (h : Handle) (r : Round), s.arbiter.inFlight = some (.plan (.sweep h)) → s.planner.round = some r →
     (s.store.verdict h ≠ .live ∨ (s.store.dir h.slot).state ≠ some .pending →
       exec .sweepRead s = .next (State.finish (State.advanceRound s.completed))) ∧
     (s.store.verdict h = .live → (s.store.dir h.slot).state = some .pending → s.store.readOrder h.slot = none →
       exec .sweepRead s = .next (State.finish (State.advanceRound (s.completed.damaged h)))) ∧
     (∀ o : Order, s.store.verdict h = .live → (s.store.dir h.slot).state = some .pending →
       s.store.readOrder h.slot = some o →
       (-(r.grace : Int) ≤ aheadMinutes r.now o.departure →
         exec .sweepRead s = .next (State.finish (State.advanceRound s.completed))) ∧
       (aheadMinutes r.now o.departure < -(r.grace : Int) → o.state = .pending → o.reached = none →
         exec .sweepRead s = .next (State.finish (State.advanceRound (s.completed.closeOrder h o .lapsed))))))

/-- ROUND_COMPUTE ranks, allocates and reads the meter. The rows are ranked by slack and then post number, each is given
its estimate, eligibility and grant from the allocation of the headroom and ramp in rank order, and SHORT; what the
allocator is handed of each row is given field by field, and a row is marked a non-candidate exactly when it is
STALLED, its post was OUT or SILENT at the snapshot, or its request is 0. The meter is read and cleared, and the
last power, sent total and headroom are kept. Rules: R114, R123, R130, R131, R132, R140, R145. The model's own
choices it rests on: log entry 15. -/
def Obligations.RoundCompute : Prop :=
  ∀ (s : State) (r : Round), s.planner.round = some r → r.phase = .compute →
    ∃ ranked rows : List RowEntry,
      ranked.Perm r.rows ∧
      ranked.Pairwise (fun a b => a.row.slack r.now r.fallback < b.row.slack r.now r.fallback ∨
        a.row.slack r.now r.fallback = b.row.slack r.now r.fallback ∧ a.row.post ≤ b.row.post) ∧
      rows = List.zipWith
        (fun e g => { e with
          result := some
            { estimate := e.row.estimate r.now r.startLead r.fallback
              eligible := e.row.eligible r.now r.startLead r.fallback, holding := e.row.holding, grant := g.2
              short := (e.row.eligible r.now r.startLead r.fallback || e.row.holding) &&
                g.2 < (e.row.estimate r.now r.startLead r.fallback).request } })
        ranked
        (allocate (headroom s.supply.mode s.link.autonomy s.supply.overrange s.site s.powerNow (sentTotal s.bus r.rows))
          (s.site.rampLimit * 1000) (ranked.map (fun e =>
            { request := (e.row.estimate r.now r.startLead r.fallback).request
              heater := e.row.heater
              lowest := (heaterLimits e.row.params e.row.heater e.row.feedLimit).lowest
              half := (heaterLimits e.row.params e.row.heater e.row.feedLimit).half
              pmaxEff := min e.row.params.pmax e.row.feedLimit / 100 * 100
              sent := e.row.sent
              eligible := e.row.eligible r.now r.startLead r.fallback
              holding := e.row.holding
              nonCandidate := decide (e.row.state = .stalled ∨ e.row.inService = false ∨ e.row.silent = true ∨
                (e.row.estimate r.now r.startLead r.fallback).request = 0) }))).1 ∧
      exec .roundCompute s = .next (State.finish (State.releaseIfDone { s with
        supply := { s.supply with
          counter := 0, overrange := false, interval := 0, lastPower := s.powerNow, lastSent := sentTotal s.bus r.rows
          lastHeadroom :=
            headroom s.supply.mode s.link.autonomy s.supply.overrange s.site s.powerNow (sentTotal s.bus r.rows) }
        planner := { s.planner with
          round := some { r with phase := .writeBack (rows.map (fun e => e.row.post)), rows := rows } } })) ∧
      rows.length = r.rows.length

/-- WRITE_BACK decides each row. A struck or stale row is discarded, a struck one without a read of its record (the
model's choice, log entry 33), a damaged record closed, an overstayed order closed with the outcome rule, a STALLED
order given its estimate alone, and any other its state, estimate, grant, SHORT, BEHIND and reached minute, the
grant taken only while the post may carry it. The rows of the last two kinds, and no others, are marked as kept for
the ranking. Rules: R6, R56, R81, R124, R125, R126, R141. The model's own choices it rests on: log entries 5, 13 and
33. -/
def Obligations.WriteBackDecides : Prop :=
  ∀ (s : State) (n : Fin 24) (r : Round) (e : RowEntry) (x : RowResult) (h : Handle),
    s.arbiter.inFlight = some (.plan (.writeBack n)) → s.planner.round = some r →
    r.rows.find? (fun e => e.row.post = n) = some e → e.result = some x → h = e.row.handle →
    (e.struck = true ∨ s.store.verdict h ≠ .live →
      exec .writeBack s = .next (State.finish (State.releaseIfDone s.completed))) ∧
    (e.struck = false → s.store.verdict h = .live → s.store.readOrder h.slot = none →
      exec .writeBack s = .next (State.finish (State.releaseIfDone (s.completed.damaged h)))) ∧
    (∀ o : Order, e.struck = false → s.store.verdict h = .live → s.store.readOrder h.slot = some o →
      (o.boundPost ≠ some n → exec .writeBack s = .next (State.finish (State.releaseIfDone s.completed))) ∧
      (o.boundPost = some n → aheadMinutes r.now o.departure < -((o.hold.getD r.grace : Nat) : Int) →
        exec .writeBack s = .next (State.finish (State.releaseIfDone (s.completed.closeOrder h o (outcomeRule o))))) ∧
      (o.boundPost = some n → -((o.hold.getD r.grace : Nat) : Int) ≤ aheadMinutes r.now o.departure →
        o.state = .stalled →
        exec .writeBack s = .next (State.finish (State.releaseIfDone
          { s.completed with
            store := s.store.writeOrder h.slot { o with estimate := some x.estimate }
            planner := { s.planner with
              round := some { r with rows := r.rows.map (fun y => if y.row.post = n then { y with kept := true } else y) } } }))) ∧
      (∀ (decided : OrderState) (lowered taken : Nat), o.boundPost = some n →
        -((o.hold.getD r.grace : Nat) : Int) ≤ aheadMinutes r.now o.departure → o.state ≠ .stalled →
        decided = (if x.holding then .holding else if x.eligible then .heating else .waiting) →
        lowered = (heaterLimits s.classes[o.cls].paramsOrZero s.bus.posts[n].heater s.bus.posts[n].feedLimit).lower
          x.grant →
        (taken = lowered ∧
            (s.bus.posts[n].inService = true ∧ s.bus.posts[n].state = .bound ∧ s.store.table[n] = some h ∧
              s.bus.posts[n].silent = false ∧ s.supply.mode ≠ .shed ∧ (decided = .heating ∨ decided = .holding) ∧
              (∀ cause, .stall n h cause ∉ s.bus.queue) ∧ .unbind n h .vehicleChange ∉ s.bus.queue ∧
              .zeroGrant n h ∉ s.bus.queue) ∨
          taken = 0 ∧
            (s.bus.posts[n].inService = false ∨ s.bus.posts[n].state ≠ .bound ∨ s.store.table[n] ≠ some h ∨
              s.bus.posts[n].silent = true ∨ s.supply.mode = .shed ∨ decided = .waiting ∨
              (∃ cause, .stall n h cause ∈ s.bus.queue) ∨ .unbind n h .vehicleChange ∈ s.bus.queue ∨
              .zeroGrant n h ∈ s.bus.queue)) →
        exec .writeBack s = .next (State.finish (State.releaseIfDone
          { s.completed with
            planner := { s.planner with
              round := some { r with rows := r.rows.map (fun y => if y.row.post = n then { y with kept := true } else y) } }
            store := s.store.writeOrder h.slot { o with
              state := decided, estimate := some x.estimate, grant := taken
              short := if lowered < x.grant then lowered < x.estimate.request else x.short
              behind := decided = .heating && x.estimate.slack < 0
              reached :=
                if o.reached = none ∧ x.holding = true ∧ 0 ≤ aheadMinutes r.now o.departure ∧
                    o.departure = e.row.departure ∧ o.target = e.row.target then some r.now
                else o.reached }
            bus := s.bus.modify n (fun p => p.setRecorded taken) }))))

/-- The release of a round. After the last write-back the round ends, the kept rows become the ranking, a RANK walk
notes the replacement, every post's pending report becomes current with its vehicle changes and binding attempts in
ascending post order, and a held SET CLASS is carried out. Rules: R80, R84, R99, R126, R127, R172. -/
def Obligations.ReleaseEffects : Prop :=
  ∀ (s : State) (r : Round), s.planner.round = some r →
    (r.phase ≠ .writeBack [] → s.releaseIfDone = s) ∧
    (r.phase = .writeBack [] → ∃ (t : State) (changed attempts : List (Fin 24)) (c : Fin 24 → Report),
      ((∀ p, s.link.inProgress = some p → p.stage ≠ .held) → s.releaseIfDone = t) ∧
      (∀ (f : SetClassFields) (tag : Byte) (k : Fin 16),
        s.link.inProgress = some { request := .setClass f, tag := tag, stage := .held } → f.cls = k →
        s.releaseIfDone = t.applyClass k f) ∧
      t.planner = { s.planner with
        round := none
        ranking := (r.rows.filter (fun e => e.kept && !e.struck)).map (fun e => e.row.handle) } ∧
      t.link = { s.link with
        walk := match s.link.walk with | .rank l _ => .rank l true | .slot n => .slot n | .inactive => .inactive } ∧
      (∀ n : Fin 24, c n =
        { vehicle := s.bus.posts[n].held.vehicle.getD s.bus.posts[n].current.vehicle
          cabin := s.bus.posts[n].held.cabin.or s.bus.posts[n].current.cabin
          outside := s.bus.posts[n].held.outside.getD s.bus.posts[n].current.outside }) ∧
      changed.Pairwise (fun x y => x < y) ∧
      (∀ n, n ∈ changed ↔ s.bus.posts[n].state = .bound ∧ (c n).vehicle ≠ 0 ∧
        (c n).vehicle ≠ s.bus.posts[n].current.vehicle) ∧
      (∀ n : Fin 24, t.bus.posts[n] =
        if n ∈ changed then
          { Post.setRecorded { s.bus.posts[n] with roundMark := false, current := c n, held := PendingReport.none } 0 with
            baseline := none }
        else { s.bus.posts[n] with roundMark := false, current := c n, held := PendingReport.none }) ∧
      t.bus.queue = s.bus.queue ++
        changed.flatMap (fun n => (s.store.table[n]).elim [] (fun h => [.unbind n h .vehicleChange])) ++
        attempts.map .bind ∧
      attempts.Pairwise (fun x y => x < y) ∧
      (∀ n, n ∈ attempts ↔ PostAccess.bind n ∉ s.bus.queue ∧ t.bus.posts[n].inService = true ∧
        t.bus.posts[n].state = .occupied ∧ t.bus.posts[n].silent = false ∧ t.bus.posts[n].current.vehicle ≠ 0) ∧
      t.bus.rotation = s.bus.rotation ∧ t.bus.exchange = s.bus.exchange ∧ t.clock = s.clock ∧ t.store = s.store ∧
      t.arbiter = s.arbiter ∧ t.plug = s.plug ∧ t.classes = s.classes ∧ t.supply = s.supply ∧ t.site = s.site ∧
      t.attention = s.attention ∧ t.pending = s.pending)

/-- EXCHANGE_START chooses the next post. The lowest post with a reduction claim or a final setpoint owed is served
first with SETPOINT; otherwise the next in-service post of the rotation, with SETPOINT when owed and POLL when not.
With an exchange in flight or no post to serve nothing changes. Rules: R68, R69, R70. The model's own choices it
rests on: log entries 3 and 12. -/
def Obligations.ExchangeStarts : Prop :=
  ∀ s : State,
    (s.bus.exchange ≠ none → exec .exchangeStart s = .next s) ∧
    (s.bus.exchange = none → (∀ n : Fin 24, s.bus.posts[n].inService = false ∧ s.bus.posts[n].finalOwed = false) →
      exec .exchangeStart s = .next s) ∧
    (∀ (n rotation : Fin 24) (setpoint : Bool) (p : Post), s.bus.exchange = none → p = s.bus.posts[n] →
      ((if p.inService then p.claim else p.finalOwed) = true ∧
          (∀ m < n, (if s.bus.posts[m].inService then s.bus.posts[m].claim else s.bus.posts[m].finalOwed) = false) ∧
          setpoint = true ∧ rotation = s.bus.rotation ∨
        (∀ m : Fin 24,
            (if s.bus.posts[m].inService then s.bus.posts[m].claim else s.bus.posts[m].finalOwed) = false) ∧
          p.inService = true ∧
          (∀ m : Fin 24, s.bus.posts[m].inService = true → n - (s.bus.rotation + 1) ≤ m - (s.bus.rotation + 1)) ∧
          (setpoint = true ↔ p.sent ≠ some p.recorded) ∧ rotation = n) →
      exec .exchangeStart s = .next { s with
        bus := { s.bus with
          posts := s.bus.posts.set n
            { p with
              fetchMark := true, claim := if setpoint then false else p.claim
              finalOwed := if setpoint then false else p.finalOwed }
          rotation := rotation
          exchange := some
            { post := n, level := if setpoint then some (p.recorded / 100) else none, pollMode := p.pollMode
              fetchMark := p.fetchMark, plugInSince := false, timer := 0 } } })

/-- The post bus frames, byte by byte. An exchange without a level sends the four bytes of a POLL, one with a level the
five bytes of a SETPOINT. Sixteen bytes are the addressed post's REPORT when start byte, address, kind, check,
heater state and call code are as the layout gives; its fields are then read and clamped. Bytes of any other number
are no report. Rules: R182; in part R71, R178, R179, R183. -/
def Obligations.ReportFrame : Prop :=
  (∀ (n : Fin 24) (st ad kd v1 v0 pr c1 c0 o1 o0 hs e1 e0 cc al ck : Byte) (bytes : List Byte),
     bytes = [st, ad, kd, v1, v0, pr, c1, c0, o1, o0, hs, e1, e0, cc, al, ck] →
     (¬ (st = 0xC3 ∧ ad.toNat = n.val ∧ kd = 0x81 ∧ hs.toNat ≤ 2 ∧ cc.toNat ≤ 2 ∧
         ck = crc8 [ad, kd, v1, v0, pr, c1, c0, o1, o0, hs, e1, e0, cc, al]) → parseReport n bytes = none) ∧
     (st = 0xC3 → ad.toNat = n.val → kd = 0x81 →
       ck = crc8 [ad, kd, v1, v0, pr, c1, c0, o1, o0, hs, e1, e0, cc, al] →
       ∀ (heater : HeaterState) (call : CallCode),
         (hs = 0 ∧ heater = .off ∨ hs = 1 ∧ heater = .running ∨ hs = 2 ∧ heater = .fault) →
         (cc = 0 ∧ call = .none ∨ cc = 1 ∧ call = .leaving ∨ cc = 2 ∧ call = .help) →
         parseReport n bytes = some
           { vehicle := if v1 = 255 ∧ v0 = 255 then 0 else 256 * v1.toNat + v0.toNat
             cabin := if pr.getLsbD 0 then some (min 600 (max (-500) (c1 ++ c0).toInt)) else none
             outside := if pr.getLsbD 1 then some (min 600 (max (-500) (o1 ++ o0).toInt)) else none
             heater := heater, energy := 256 * e1.toNat + e0.toNat, call := call, applied := min 100 al.toNat }) ∧
     (∀ other : List Byte, other.length ≠ 16 → parseReport n other = none)) ∧
  (∀ x : Exchange,
     (x.level = none → x.frame = [0xC3, byte x.post, 0x01, crc8 [byte x.post, 0x01]]) ∧
     (∀ l, x.level = some l → x.frame = [0xC3, byte x.post, 0x02, byte l, crc8 [byte x.post, 0x02, byte l]]))

/-- POST_REPLY with the post's REPORT. An answered exchange at an in-service post sets the sent grant, takes the report
into the current or the pending report, the reading age, silence, call code and baseline, and presents the energy,
stall, recovery and unbind accesses of a BOUND post or a binding attempt. Where one reply both sets the sent grant
and raises a stall or brings a vehicle change, the sent grant is set before the recorded grant is zeroed (model's
choice, log entry 34). Rules: R70 to R78, R80, R84, R94. The model's own choices it rests on: log entries 13 and 34. -/
def Obligations.AnsweredExchange : Prop :=
  ∀ (s : State) (bytes : List Byte) (x : Exchange) (r : ReportFields) (p : Post) (vehicle : Nat) (cabin : Option Int),
    s.bus.exchange = some x → parseReport x.post bytes = some r → p = s.bus.posts[x.post] → p.inService = true →
    (if x.plugInSince = false ∧ (x.pollMode = .direct ∨ x.fetchMark = true) ∧ p.state ≠ .empty then
        vehicle = r.vehicle ∧ cabin = r.cabin else vehicle = 0 ∧ cabin = none) →
    ∃ (t : State) (q0 q : Post) (changed : Bool) (energy condition naming : List PostAccess),
      exec (.postReply bytes) s = .next t.finish ∧
      q0 = { p with
        sent := if x.level = none then p.sent else some (r.applied * 100)
        claim := p.claim || x.level.any (fun l => p.recorded < l * 100 && p.recorded < r.applied * 100)
        current :=
          if p.roundMark then p.current
          else
            { vehicle := if vehicle = 0 then p.current.vehicle else vehicle, cabin := cabin.or p.current.cabin
              outside := r.outside }
        held :=
          if p.roundMark then
            { vehicle := if vehicle = 0 then p.held.vehicle else some vehicle, cabin := cabin.or p.held.cabin
              outside := some r.outside }
          else p.held
        heaterState := some r.heater
        age := if cabin = none then min 3 (p.age + 1) else 0
        silence := 0, silent := false
        lastCall := if r.call = .none then p.lastCall else r.call
        baseline := if p.state = .bound then some r.energy else p.baseline } ∧
      (changed = true ↔ p.roundMark = false ∧ vehicle ≠ 0 ∧ vehicle ≠ p.current.vehicle) ∧
      (p.state = .bound → changed = true → q = { q0.setRecorded 0 with baseline := none }) ∧
      (p.state = .bound → changed = false → r.heater = .fault ∨ p.age = 2 ∧ cabin = none → q = q0.setRecorded 0) ∧
      (p.state ≠ .bound ∨ changed = false ∧ r.heater ≠ .fault ∧ ¬ (p.age = 2 ∧ cabin = none) → q = q0) ∧
      (∀ h, p.state = .bound → s.store.table[x.post] = some h →
        energy =
          (match p.baseline with
          | some b =>
            if (r.energy + 65536 - b) % 65536 ≤ 1000 then [.addEnergy x.post h ((r.energy + 65536 - b) % 65536)] else []
          | none => []) ∧
        condition =
          (if r.heater = .fault then [.stall x.post h .heaterFault]
          else if cabin ≠ none then [.recover x.post h]
          else if p.age = 2 then [.stall x.post h .staleReading] else []) ∧
        naming = if changed then [.unbind x.post h .vehicleChange] else []) ∧
      (p.state ≠ .bound → energy = [] ∧ condition = [] ∧
        naming =
          if p.state = .occupied ∧ q.current.vehicle ≠ 0 ∧ (changed = true ∨ p.silent = true) ∧
            .bind x.post ∉ s.bus.queue then [.bind x.post] else []) ∧
      (p.state ≠ .bound ∨ s.store.table[x.post] ≠ none → t = { s with
        bus := { s.bus with
          posts := s.bus.posts.set x.post q, exchange := none
          queue := s.bus.queue ++ (energy ++ condition) ++ naming }
        attention :=
          if r.call = .none then s.attention
          else
            { s.attention with
              posts := s.attention.posts.set x.post { s.attention.posts[x.post] with call := true } } })

/-- REPLY_TIMEOUT whatever its timer's count (model's choice, log entry 2), a reply that is no REPORT, and a reply of an
OUT post. An unanswered exchange raises a known sent grant to the level sent, counts the reading age and the
silence, makes the post SILENT at the fourth, and presents the stalls; a SETPOINT above the recorded grant that
leaves the sent grant above it sets the claim, at an OUT post the final setpoint owed. A reply of an OUT post sets
the sent grant alone, sets the final setpoint owed in the same case and clears it when the sent grant becomes 0.
With no exchange in flight nothing changes. That REPLY_TIMEOUT completes the exchange at any count of its timer is
the model's choice (log entry 2). Rules: R61, R68, R69, R73, R74, R75, R76. The model's own choices it rests on: log
entries 2, 3, 12 and 28. -/
def Obligations.UnansweredExchange : Prop :=
  (∀ (s : State) (c : Instr) (x : Exchange) (p : Post), s.bus.exchange = some x → p = s.bus.posts[x.post] →
     (c = .replyTimeout ∨ ∃ bytes, c = .postReply bytes ∧ parseReport x.post bytes = none) →
     ∃ (sent : Option Nat) (q0 : Post),
       sent = (match p.sent, x.level with
         | some w, some l => some (if w < l * 100 then l * 100 else w)
         | w, _ => w) ∧
       q0 = { p with
         sent := sent
         claim := p.claim || (p.inService && x.level.any (fun l => p.recorded < l * 100) &&
           sent.any (fun w => p.recorded < w))
         finalOwed := p.finalOwed || (!p.inService && x.level.any (fun l => p.recorded < l * 100) &&
           sent.any (fun w => p.recorded < w)) } ∧
       (p.inService = false → exec c s = .next (State.finish { s with
         bus := { s.bus with posts := s.bus.posts.set x.post q0, exchange := none } })) ∧
       (∀ (q1 q : Post) (stalls : List PostAccess), p.inService = true →
         q1 = { q0 with
           age := min 3 (p.age + 1), silence := min 4 (p.silence + 1)
           silent := if p.silence = 3 then true else p.silent } →
         q = (if p.silence = 3 ∨ p.state = .bound ∧ p.age = 2 then q1.setRecorded 0 else q1) →
         (p.state ≠ .bound ∧ stalls = [] ∨
           ∃ h, p.state = .bound ∧ s.store.table[x.post] = some h ∧
             stalls = (if p.age = 2 then [.stall x.post h .staleReading] else []) ++
               (if p.silence = 3 then [.stall x.post h .postSilent] else [])) →
         exec c s = .next (State.finish { s with
           bus := { s.bus with
             posts := s.bus.posts.set x.post q, exchange := none, queue := s.bus.queue ++ stalls } }))) ∧
  (∀ (s : State) (bytes : List Byte),
     (∀ (x : Exchange) (r : ReportFields) (p : Post), s.bus.exchange = some x → parseReport x.post bytes = some r →
       p = s.bus.posts[x.post] → p.inService = false →
       exec (.postReply bytes) s = .next (State.finish { s with
         bus := { s.bus with
           posts := s.bus.posts.set x.post
             (match x.level with
             | none => p
             | some l =>
               { p with
                 sent := some (r.applied * 100)
                 finalOwed := (p.finalOwed || (p.recorded < l * 100 && p.recorded < r.applied * 100)) &&
                   r.applied ≠ 0 })
           exchange := none } })) ∧
     (s.bus.exchange = none →
       exec (.postReply bytes) s = .next s.finish ∧ exec .replyTimeout s = .next s.finish))

/-- PLUG_SENSE_CHANGE and PLUG_FILTER_EXPIRY. A change of the line starts or stops its filter timer. The expiry takes
the line's level: a plug-in makes an EMPTY in-service post OCCUPIED with PLUGGED-IN, a plug-out makes an OCCUPIED or
BOUND one EMPTY with PLUGGED-OUT and presents the unbind, and any other post is unchanged. Rules: R65, R66, R67. The
model's own choices it rests on: log entries 2 and 3. -/
def Obligations.PlugLines : Prop :=
  ∀ (s : State) (n : Fin 24) (p : Post), p = s.bus.posts[n] →
    (∀ (level : Level) (f : LineFilter),
      (level = s.plug[n].line ∧ f = s.plug[n] ∨
        level ≠ s.plug[n].line ∧ level = s.plug[n].filtered ∧ f = { s.plug[n] with line := level, timer := none } ∨
        level ≠ s.plug[n].line ∧ level ≠ s.plug[n].filtered ∧ f = { s.plug[n] with line := level, timer := some 0 }) →
      exec (.plugSenseChange n level) s = .next { s with plug := s.plug.set n f }) ∧
    (s.plug[n].timer = none → exec (.plugFilterExpiry n) s = .next s.finish) ∧
    (∀ t : State, s.plug[n].timer ≠ none →
      t = { s with plug := s.plug.set n { s.plug[n] with filtered := s.plug[n].line, timer := none } } →
      (p.inService = false ∨ (s.plug[n].line = .high ∧ p.state ≠ .empty) ∨
          (s.plug[n].line = .low ∧ p.state ≠ .occupied ∧ p.state ≠ .bound) →
        exec (.plugFilterExpiry n) s = .next t.finish) ∧
      (p.inService = true → s.plug[n].line = .high → p.state = .empty →
        exec (.plugFilterExpiry n) s = .next (State.finish { t with
          bus := { s.bus with
            posts := s.bus.posts.set n { p with
              state := .occupied, current := { p.current with vehicle := 0, cabin := none }
              held := PendingReport.none, age := 0, baseline := none, fetchMark := false }
            exchange := s.bus.exchange.map (fun x => if x.post = n then { x with plugInSince := true } else x) }
          attention := { s.attention with
            posts := s.attention.posts.set n { s.attention.posts[n] with pluggedIn := true } } })) ∧
      (∀ a : Arbiter, p.inService = true → s.plug[n].line = .low → p.state = .occupied ∨ p.state = .bound →
        ((∃ note, s.arbiter.inFlight = some (.bind n note) ∧
            a = { s.arbiter with inFlight := some (.bind n { note with plugOut := true }) }) ∨
          (∀ note, s.arbiter.inFlight ≠ some (.bind n note)) ∧ a = s.arbiter) →
        exec (.plugFilterExpiry n) s = .next (State.finish { t with
          arbiter := a
          bus := { s.bus with
            posts := s.bus.posts.set n { p.setRecorded 0 with
              state := .empty, current := { p.current with vehicle := 0, cabin := none }
              held := PendingReport.none, baseline := none, condition := .none }
            queue := s.bus.queue ++
              (if p.state = .bound then (s.store.table[n]).elim [] (fun h => [.unbind n h .unplug]) else []) }
          attention := { s.attention with
            posts := s.attention.posts.set n { s.attention.posts[n] with pluggedOut := true } } })))

/-- SITE_LINE_CHANGE, SITE_LINE_FILTER_EXPIRY, RESTORE_TIMER_EXPIRY and METER_PULSE. A change of a line starts or stops
its filter timer and its expiry judges the calls anew. The restore timer's expiry leads to LIMITED when limit is
called and to NORMAL otherwise. A pulse on the selected edge counts up to 4095 and sets the overrange beyond. Rules:
R144, R146, R148, R149. The model's own choices it rests on: log entries 2, 3 and 19. -/
def Obligations.SiteLines : Prop :=
  ∀ s : State,
    (∀ (level : Level) (f : LineFilter),
      (level = s.supply.limit.line ∧ f = s.supply.limit ∨
        level ≠ s.supply.limit.line ∧
          f = { s.supply.limit with line := level, timer := if level = s.supply.limit.filtered then none else some 0 }) →
      exec (.siteLineChange .limit level) s = .next { s with supply := { s.supply with limit := f } }) ∧
    (∀ (level : Level) (f : LineFilter),
      (level = s.supply.shed.line ∧ f = s.supply.shed ∨
        level ≠ s.supply.shed.line ∧
          f = { s.supply.shed with line := level, timer := if level = s.supply.shed.filtered then none else some 0 }) →
      exec (.siteLineChange .shed level) s = .next { s with supply := { s.supply with shed := f } }) ∧
    (s.supply.limit.timer = none → exec (.siteLineFilterExpiry .limit) s = .next s.finish) ∧
    (s.supply.shed.timer = none → exec (.siteLineFilterExpiry .shed) s = .next s.finish) ∧
    (s.supply.limit.timer ≠ none → exec (.siteLineFilterExpiry .limit) s = .next (State.finish (s.judgeCalls
      { s.supply with limit := { s.supply.limit with filtered := s.supply.limit.line, timer := none } }))) ∧
    (s.supply.shed.timer ≠ none → exec (.siteLineFilterExpiry .shed) s = .next (State.finish (s.judgeCalls
      { s.supply with shed := { s.supply.shed with filtered := s.supply.shed.line, timer := none } }))) ∧
    (s.supply.mode ≠ .restoring → exec .restoreTimerExpiry s = .next s.finish) ∧
    (s.supply.mode = .restoring → exec .restoreTimerExpiry s = .next (State.finish { s with
      supply := { s.supply with
        mode := if s.supply.limit.filtered = .high ∨ s.supply.forced = .limited then .limited else .normal
        restore := none }
      attention := { s.attention with modeChange := true }
      planner := { s.planner with replan := true } })) ∧
    (∀ edge : Edge,
      (edge ≠ s.site.meterEdge → exec (.meterPulse edge) s = .next s) ∧
      (edge = s.site.meterEdge → s.supply.counter < 4095 →
        exec (.meterPulse edge) s = .next { s with supply := { s.supply with counter := s.supply.counter + 1 } }) ∧
      (edge = s.site.meterEdge → 4095 ≤ s.supply.counter →
        exec (.meterPulse edge) s = .next { s with
          supply := { s.supply with overrange := true }, attention := { s.attention with meterOverrange := true } }))

/-- The moves of the site mode. Each change of a call moves the site mode as the table gives, with MODE CHANGE and
replan pending; the entry into SHED zeroes every recorded grant, sets the claims where the sent grant is above 0 or
unknown, and presents one zero-grant access for each bound order. Where the sent grant is 0 the claim stays as it
was, and an OUT post holds none: DEDUCED, log entry 13. Rules: R148, R150, R151. The model's own choices it rests
on: log entry 13. -/
def Obligations.SiteModeMoves : Prop :=
  ∀ (s t : State) (x : Supply) (wasShed isShed wasLimit isLimit : Bool), x.mode = s.supply.mode →
    x.restore = s.supply.restore → t = s.judgeCalls x →
    (wasShed = true ↔ s.supply.shed.filtered = .high ∨ s.supply.forced = .shed) →
    (isShed = true ↔ x.shed.filtered = .high ∨ x.forced = .shed) →
    (wasLimit = true ↔ s.supply.limit.filtered = .high ∨ s.supply.forced = .limited) →
    (isLimit = true ↔ x.limit.filtered = .high ∨ x.forced = .limited) →
    (wasShed = isShed → (wasLimit = isLimit ∨ x.mode = .shed ∨ x.mode = .restoring ∨
        isLimit = true ∧ x.mode = .limited ∨ isLimit = false ∧ x.mode = .normal) →
      t = { s with supply := x }) ∧
    (∀ (m : SiteMode) (r : Option Nat),
      (wasShed = false ∧ isShed = true ∧ x.mode ≠ .shed ∧ m = .shed ∧ r = none ∨
        wasShed = true ∧ isShed = false ∧ x.mode = .shed ∧
          (0 < s.site.restoreDelay ∧ m = .restoring ∧ r = some 0 ∨
            s.site.restoreDelay = 0 ∧ m = (if isLimit then .limited else .normal) ∧ r = none) ∨
        wasShed = isShed ∧ wasLimit = false ∧ isLimit = true ∧ x.mode = .normal ∧ m = .limited ∧ r = none ∨
        wasShed = isShed ∧ wasLimit = true ∧ isLimit = false ∧ x.mode = .limited ∧ m = .normal ∧ r = none) →
      t = { s with
        supply := { x with mode := m, restore := r }
        attention := { s.attention with modeChange := true }
        planner := { s.planner with replan := true }
        bus := t.bus } ∧
      (m ≠ .shed → t.bus = s.bus) ∧
      (m = .shed →
        (∀ n : Fin 24, t.bus.posts[n] =
          { s.bus.posts[n] with
            recorded := 0
            claim := s.bus.posts[n].inService && (s.bus.posts[n].sent ≠ some 0 || s.bus.posts[n].claim) }) ∧
        t.bus.queue = s.bus.queue ++
          (List.finRange 24).flatMap (fun n => (s.store.table[n]).elim [] (fun h => [.zeroGrant n h])) ∧
        t.bus.rotation = s.bus.rotation ∧ t.bus.exchange = s.bus.exchange))

/-- Headroom, measured power and sent total. The headroom from mode limit, ceiling and other load, and its overrange
form; the measured power as pulses times constant over the interval, rounded down, with at least one second; the
sent total with its three substitutes for an unknown sent grant. Rules: R145, R152, R153. The model's own choices it
rests on: log entry 15. -/
def Obligations.HeadroomRule : Prop :=
  (∀ (mode : SiteMode) (autonomy : Bool) (x : SiteSettings) (power sent : Nat) (lm cc po : Int),
    lm = (match mode with
      | .normal => (x.siteLimit : Int) * 1000
      | .limited => min (x.limitedLevel : Int) x.siteLimit * 1000
      | .restoring => min (x.limitedLevel : Int) x.siteLimit * 1000
      | .shed => 0) →
    cc = (if autonomy then min (x.ceiling : Int) x.autoCeiling * 1000 else (x.ceiling : Int) * 1000) →
    po = (if (sent : Int) < power then (power : Int) - sent else 0) →
    ((headroom mode autonomy false x power sent : Nat) : Int) = max 0 (min (lm - po) cc) ∧
    ((headroom mode autonomy true x power sent : Nat) : Int) = if mode = .shed then 0 else min cc sent) ∧
  (∀ n k t : Nat, measuredPower n k t * max 1 t ≤ n * k * 3600 ∧ n * k * 3600 < (measuredPower n k t + 1) * max 1 t) ∧
  (∀ s : State, s.powerNow = measuredPower s.supply.counter s.site.meterConstant (s.supply.interval / 1000)) ∧
  (∀ (b : Bus) (rows : List RowEntry) (w : Fin 24 → Nat),
    (∀ (n : Fin 24) (g : Nat), b.posts[n].sent = some g → w n = g) →
    (∀ (n : Fin 24) (e : RowEntry), b.posts[n].sent = none → rows.find? (fun e => e.row.post = n) = some e →
      w n = min e.row.params.pmax e.row.feedLimit / 100 * 100) →
    (∀ n : Fin 24, b.posts[n].sent = none → (∀ e ∈ rows, e.row.post ≠ n) →
      w n = if b.posts[n].inService then b.posts[n].feedLimit else 0) →
    sentTotal b rows = ((List.finRange 24).map w).sum)

/-- The two passes of the allocation in rank order, what it gives and what it leaves. There are floors, one a row in
rank order, such that each candidate's floor is its floor level when that fits the headroom and ramp the earlier
floors have left, and 0 otherwise; and then each row's grant, where half lies at or below Pmax_eff, is the highest
of its levels from its floor to its request that fits what the earlier grants and the later floors have left. Grants
and what is left add up to the headroom and, in rises above the sent grants, to the ramp. Each row gets nothing or a
level of its heater from its floor to its request; a row without its floor, or a next step it did not get, would not
have fitted what is left. Rules: R129, R132 to R139. -/
def Obligations.AllocationBounds : Prop :=
  ∀ (headroom ramp : Nat) (rows : List AllocRow) (grants : List (AllocRow × Nat)) (rest : Remainder),
    allocate headroom ramp rows = (grants, rest) →
    (∃ floors : List (AllocRow × Nat), floors.map Prod.fst = rows ∧
      (∀ (before after : List (AllocRow × Nat)) (a : AllocRow) (f floor hd rp : Nat),
        floors = before ++ (a, f) :: after →
        hd + (before.map Prod.snd).sum = headroom → rp + (before.map (fun x => x.2 - x.1.sent.getD 0)).sum = ramp →
        floor = (match a.heater with | .continuous => a.lowest | .stepped => a.half | .switched => a.pmaxEff) →
        a.floor = floor ∧
        f = if a.nonCandidate = false ∧ floor ≤ hd ∧ floor - a.sent.getD 0 ≤ rp then floor else 0) ∧
      ((∀ a ∈ rows, a.heater = .stepped → a.half ≤ a.pmaxEff) →
        ∀ (before before' after after' : List (AllocRow × Nat)) (a : AllocRow) (f g hd rp : Nat),
        floors = before ++ (a, f) :: after → grants = before' ++ (a, g) :: after' → before.length = before'.length →
        hd + (before'.map Prod.snd).sum + f + (after.map Prod.snd).sum = headroom →
        rp + (before'.map (fun x => x.2 - x.1.sent.getD 0)).sum + (f - a.sent.getD 0) +
          (after.map (fun x => x.2 - x.1.sent.getD 0)).sum = ramp →
        (f = 0 → g = 0) ∧
        (a.heater = .switched → g = f) ∧
        (a.heater = .stepped → 0 < f → g =
          if f = a.half ∧ a.request = a.pmaxEff ∧ a.pmaxEff - f ≤ hd ∧
            (a.pmaxEff - a.sent.getD 0) - (f - a.sent.getD 0) ≤ rp then a.pmaxEff else f) ∧
        (a.heater = .continuous → 0 < f → f ≤ a.request → f % 100 = 0 →
          (g % 100 = 0 ∧ f ≤ g ∧ g ≤ a.request ∧ g - f ≤ hd ∧ (g - a.sent.getD 0) - (f - a.sent.getD 0) ≤ rp) ∧
          ∀ w, w % 100 = 0 → f ≤ w → w ≤ a.request → w - f ≤ hd → (w - a.sent.getD 0) - (f - a.sent.getD 0) ≤ rp →
            w ≤ g))) ∧
    ((∀ a ∈ rows, a.nonCandidate = false → 0 < a.floor ∧ a.floor ≤ a.request ∧ a.request ≤ a.pmaxEff ∧
       (a.heater = .continuous → a.lowest % 100 = 0 ∧ a.request % 100 = 0)) →
     grants.map Prod.fst = rows ∧
     (grants.map Prod.snd).sum + rest.headroom = headroom ∧
     (grants.map (fun x => x.2 - x.1.sent.getD 0)).sum + rest.ramp = ramp ∧
     ∀ (a : AllocRow) (g s : Nat), (a, g) ∈ grants → s = a.sent.getD 0 →
       (a.nonCandidate = true → g = 0) ∧
       (a.nonCandidate = false →
         g ≤ a.request ∧ (g = 0 ∨ a.floor ≤ g) ∧
         (a.heater = .continuous → g % 100 = 0) ∧
         (a.heater = .stepped → g = 0 ∨ g = a.half ∨ g = a.pmaxEff) ∧
         (a.heater = .switched → g = 0 ∨ g = a.pmaxEff) ∧
         (g = 0 → rest.headroom < a.floor ∨ rest.ramp < a.floor - s) ∧
         (a.heater = .continuous → 0 < g → g < a.request →
           rest.headroom < 100 ∨ rest.ramp < (g + 100 - s) - (g - s)) ∧
         (a.heater = .stepped → g = a.half → a.half < a.request → a.request = a.pmaxEff →
           rest.headroom < a.pmaxEff - g ∨ rest.ramp < (a.pmaxEff - s) - (g - s))))

/-- Deliverable levels, requests and lowered grants. The effective maximum, half and the lowest level; a request of 0
for a raw request of 0; the deliverable levels of the three heater interfaces; the request for a raw request above
0, which is deliverable, above 0 and at least the raw request or Pmax_eff: on a CONTINUOUS post the lowest such
level, on a SWITCHED post Pmax_eff, on a STEPPED post half exactly when both the raw request and the class's Pmin
are at most half. The last clause, where Pmin lies above half, follows R113 against R105's words and is the model's
choice, log entry 29. A grant is lowered to the highest deliverable level at or below it. Rules: R105, R113, R115.
The model's own choices it rests on: log entry 29. -/
def Obligations.DeliverableLevels : Prop :=
  ∀ (c : ClassParams) (heater : Heater) (feed : Nat) (l : HeaterLimits), l = heaterLimits c heater feed →
    500 ≤ c.pmax → 1000 ≤ feed →
    (l.pmaxEff % 100 = 0 ∧ l.pmaxEff ≤ min c.pmax feed ∧ min c.pmax feed < l.pmaxEff + 100) ∧
    (l.half = l.pmaxEff / 2 / 100 * 100 ∧
      l.lowest = (match heater with
        | .continuous => max (min ((c.pmin + 99) / 100 * 100) l.pmaxEff) 100
        | .stepped => l.pmaxEff / 2 / 100 * 100
        | .switched => l.pmaxEff)) ∧
    (∀ w : Nat, l.deliverable w = true ↔ w = 0 ∨
      (match heater with
      | .continuous => w % 100 = 0 ∧ min c.pmin l.pmaxEff ≤ w ∧ 100 ≤ w ∧ w ≤ l.pmaxEff
      | .stepped => w = l.pmaxEff / 2 / 100 * 100 ∨ w = l.pmaxEff
      | .switched => w = l.pmaxEff)) ∧
    l.request 0 = 0 ∧
    (∀ raw : Nat, 0 < raw →
      l.deliverable (l.request raw) = true ∧ 0 < l.request raw ∧ l.request raw ≤ l.pmaxEff ∧
      min raw l.pmaxEff ≤ l.request raw ∧
      (heater = .continuous → ∀ w, l.deliverable w = true → 0 < w → min raw l.pmaxEff ≤ w → l.request raw ≤ w) ∧
      (heater = .stepped → (l.request raw = l.pmaxEff / 2 / 100 * 100 ↔
        raw ≤ l.pmaxEff / 2 / 100 * 100 ∧ c.pmin ≤ l.pmaxEff / 2 / 100 * 100)) ∧
      (heater = .switched → l.request raw = l.pmaxEff)) ∧
    ∀ w : Nat, l.deliverable (l.lower w) = true ∧ l.lower w ≤ w ∧
      ∀ x, l.deliverable x = true → x ≤ w → x ≤ l.lower w

/-- The stages of the thermal estimate (the order of R112's two cases at lift energy 0: model's choice, log entry 14).
Lift energy, loss power, time to target and UNREACHABLE, lead, latest start and slack, eligibility, the holding
test, and the request while holding and while lifting, each as its stage gives it with its rounding. An eligible row
that is not holding and whose lift energy is 0 asks for the hold power, as R112 says; that it does so also where
R112's time left is 0 or less, for which R112 names Pmax_eff as well, is the model's choice, log entry 14. Rules:
R104 to R113. The model's own choices it rests on: log entry 14. -/
def Obligations.EstimateStages : Prop :=
  ∀ (r : Row) (now startLead : Nat) (fallback tin tout : Int) (e : Estimate) (full : Nat),
    e = r.estimate now startLead fallback → 0 < r.params.h →
    full = min r.params.pmax r.feedLimit / 100 * 100 * r.params.h / 16 →
    tout = (match r.report.outside with | some t => t | none => fallback) →
    tin = (match r.report.cabin with | some t => if r.age < 3 then t else tout | none => tout) →
    ((r.params.c : Int) * max 0 (r.target - tin) ≤ 10 * e.liftEnergy ∧
      10 * e.liftEnergy < (r.params.c : Int) * max 0 (r.target - tin) + 10) ∧
    ((r.params.g : Int) * max 0 (r.target - tout) ≤ 10 * e.lossPower ∧
      10 * e.lossPower < (r.params.g : Int) * max 0 (r.target - tout) + 10) ∧
    (e.liftEnergy = 0 → e.timeToTarget = 0 ∧ e.unreachable = false) ∧
    (0 < e.liftEnergy → full ≤ e.lossPower → e.timeToTarget = 65535 ∧ e.unreachable = true) ∧
    (0 < e.liftEnergy → e.lossPower < full → e.unreachable = false ∧ ∃ t, e.timeToTarget = min 65535 t ∧
      1000 * e.liftEnergy ≤ t * (full - e.lossPower) ∧
      t * (full - e.lossPower) < 1000 * e.liftEnergy + (full - e.lossPower)) ∧
    (∃ lead : Nat, (e.timeToTarget + 60 * r.params.m ≤ 60 * lead ∧
        60 * lead < e.timeToTarget + 60 * r.params.m + 60) ∧
      e.slack = aheadMinutes now r.departure - lead +
        (match r.tier with | .firstOut => -10 | .regular => 0 | .flexible => 10) ∧
      e.latestStart < 10080 ∧ (e.latestStart + lead) % 10080 = r.departure % 10080) ∧
    (r.eligible now startLead fallback = true ↔
      e.slack ≤ startLead ∧ ∀ t, r.earliest = some t →
        aheadMinutes now t ≤ 0 ∨ aheadMinutes now r.departure < aheadMinutes now t) ∧
    (r.holding = true ↔ r.age < 3 ∧ ∃ t, r.report.cabin = some t ∧
      (r.target ≤ t ∨ r.state = .holding ∧ r.target - 10 ≤ t)) ∧
    (∃ hold : Nat, (e.lossPower * 16 ≤ hold * r.params.h ∧ hold * r.params.h < e.lossPower * 16 + r.params.h) ∧
      (r.holding = true → e.request = r.limits.request hold) ∧
      (r.holding = false → r.eligible now startLead fallback = true → e.liftEnergy = 0 →
        e.request = r.limits.request hold)) ∧
    (r.holding = false → r.eligible now startLead fallback = false → e.request = 0) ∧
    (r.holding = false → r.eligible now startLead fallback = true → 0 < e.liftEnergy →
      (aheadMinutes now r.departure ≤ r.params.m ∨ e.unreachable = true →
        e.request = r.limits.request (min r.params.pmax r.feedLimit / 100 * 100)) ∧
      (∀ left : Nat, (left : Int) = aheadMinutes now r.departure - r.params.m → 0 < left → e.unreachable = false →
        ∃ heat raw : Nat,
          (1000 * e.liftEnergy ≤ heat * (left * 60) ∧ heat * (left * 60) < 1000 * e.liftEnergy + left * 60) ∧
          ((heat + e.lossPower) * 16 ≤ raw * r.params.h ∧
            raw * r.params.h < (heat + e.lossPower) * 16 + r.params.h) ∧
          e.request = r.limits.request raw))

/-- A recorded grant stays zero but at a BOUND, answering post outside SHED. If every recorded grant that is not 0
belongs to an in-service, BOUND post that is not SILENT while the site mode is not SHED, then so it is after any
step. Rules: R81, R151. -/
def Obligations.GrantsStaySound : Prop :=
  ∀ s t : State, s.grantsSound → step s = .next t → t.grantsSound

/-- The clock, settings, meter counter, posting slots, class parameters and post records stay in their ranges. If the
clock's second and minute, the site settings, the supervision time (0 or 10 to 600 s), the meter counter, the class
parameters, the level in flight on the post bus and, of each post record, the feed limit, the reading age, the
silence count, the recorded and the sent grant, the energy baseline and the current and pending reports lie in the
ranges the spec gives them, at most two posting slots are used, a request in progress waits exactly while changes
are posted, the restore timer runs exactly in RESTORING, a post is OUT exactly when its service is, and a binding
condition stands at OCCUPIED posts alone, then so it is after any step. Rules: R45, R59, R64, R68, R71, R72, R73,
R74, R75, R77, R80, R81, R83, R98, R144, R149, R166, R168, R173, R175. -/
def Obligations.StateStaysSound : Prop :=
  ∀ s t : State, s.sound → step s = .next t → t.sound

/-- The slot directory's copies and the vehicle index stay sound. If every stored record agrees with the copies in its
directory entry and the vehicle index holds one nonempty list a vehicle number, then so it is after any step. Rules:
R28, R31, R32. -/
def Obligations.StoreStaysSound : Prop :=
  ∀ s t : State, s.store.directorySound ∧ s.store.indexSound → step s = .next t →
    t.store.directorySound ∧ t.store.indexSound

/-- The invariants hold after reset. The state after reset has sound grants, the ranges and relations of
StateStaysSound, a sound directory and a sound vehicle index. Rules: R43, R82, R177. -/
def Obligations.ResetSound : Prop :=
  State.reset.grantsSound ∧ State.reset.sound ∧ State.reset.store.directorySound ∧ State.reset.store.indexSound
end

