-- ==== Sys2Proof/Laws/State.lean ====
section
/-! SUPPORT. Frames: which blocks of the part each shared operation leaves as they are. One lemma per field per
operation, so that later proofs cite these and unfold nothing. -/

namespace Sys2Proof.Machine

/-! ### Updates of one block -/

@[simp] theorem State.completed_clock (s : State) : (s.completed).clock = s.clock := rfl
@[simp] theorem State.completed_store (s : State) : (s.completed).store = s.store := rfl
@[simp] theorem State.completed_link (s : State) : (s.completed).link = s.link := rfl
@[simp] theorem State.completed_bus (s : State) : (s.completed).bus = s.bus := rfl
@[simp] theorem State.completed_plug (s : State) : (s.completed).plug = s.plug := rfl
@[simp] theorem State.completed_classes (s : State) : (s.completed).classes = s.classes := rfl
@[simp] theorem State.completed_planner (s : State) : (s.completed).planner = s.planner := rfl
@[simp] theorem State.completed_supply (s : State) : (s.completed).supply = s.supply := rfl
@[simp] theorem State.completed_site (s : State) : (s.completed).site = s.site := rfl
@[simp] theorem State.completed_attention (s : State) : (s.completed).attention = s.attention := rfl
@[simp] theorem State.completed_pending (s : State) : (s.completed).pending = s.pending := rfl

@[simp] theorem State.completed_arbiter (s : State) : s.completed.arbiter = { s.arbiter with inFlight := none } := rfl

@[simp] theorem State.answer_clock (s : State) (x : Status) (c : Bool) (p : List Byte) : (s.answer x c p).clock = s.clock := rfl
@[simp] theorem State.answer_store (s : State) (x : Status) (c : Bool) (p : List Byte) : (s.answer x c p).store = s.store := rfl
@[simp] theorem State.answer_arbiter (s : State) (x : Status) (c : Bool) (p : List Byte) : (s.answer x c p).arbiter = s.arbiter := rfl
@[simp] theorem State.answer_bus (s : State) (x : Status) (c : Bool) (p : List Byte) : (s.answer x c p).bus = s.bus := rfl
@[simp] theorem State.answer_plug (s : State) (x : Status) (c : Bool) (p : List Byte) : (s.answer x c p).plug = s.plug := rfl
@[simp] theorem State.answer_classes (s : State) (x : Status) (c : Bool) (p : List Byte) : (s.answer x c p).classes = s.classes := rfl
@[simp] theorem State.answer_planner (s : State) (x : Status) (c : Bool) (p : List Byte) : (s.answer x c p).planner = s.planner := rfl
@[simp] theorem State.answer_supply (s : State) (x : Status) (c : Bool) (p : List Byte) : (s.answer x c p).supply = s.supply := rfl
@[simp] theorem State.answer_site (s : State) (x : Status) (c : Bool) (p : List Byte) : (s.answer x c p).site = s.site := rfl
@[simp] theorem State.answer_attention (s : State) (x : Status) (c : Bool) (p : List Byte) : (s.answer x c p).attention = s.attention := rfl
@[simp] theorem State.answer_pending (s : State) (x : Status) (c : Bool) (p : List Byte) : (s.answer x c p).pending = s.pending := rfl

@[simp] theorem State.refuse_clock (s : State) (x : Status) : (s.refuse x).clock = s.clock := rfl
@[simp] theorem State.refuse_store (s : State) (x : Status) : (s.refuse x).store = s.store := rfl
@[simp] theorem State.refuse_arbiter (s : State) (x : Status) : (s.refuse x).arbiter = s.arbiter := rfl
@[simp] theorem State.refuse_bus (s : State) (x : Status) : (s.refuse x).bus = s.bus := rfl
@[simp] theorem State.refuse_plug (s : State) (x : Status) : (s.refuse x).plug = s.plug := rfl
@[simp] theorem State.refuse_classes (s : State) (x : Status) : (s.refuse x).classes = s.classes := rfl
@[simp] theorem State.refuse_planner (s : State) (x : Status) : (s.refuse x).planner = s.planner := rfl
@[simp] theorem State.refuse_supply (s : State) (x : Status) : (s.refuse x).supply = s.supply := rfl
@[simp] theorem State.refuse_site (s : State) (x : Status) : (s.refuse x).site = s.site := rfl
@[simp] theorem State.refuse_attention (s : State) (x : Status) : (s.refuse x).attention = s.attention := rfl
@[simp] theorem State.refuse_pending (s : State) (x : Status) : (s.refuse x).pending = s.pending := rfl

@[simp] theorem State.presentLink_clock (s : State) (a : LinkAccess) : (s.presentLink a).clock = s.clock := rfl
@[simp] theorem State.presentLink_store (s : State) (a : LinkAccess) : (s.presentLink a).store = s.store := rfl
@[simp] theorem State.presentLink_arbiter (s : State) (a : LinkAccess) : (s.presentLink a).arbiter = s.arbiter := rfl
@[simp] theorem State.presentLink_bus (s : State) (a : LinkAccess) : (s.presentLink a).bus = s.bus := rfl
@[simp] theorem State.presentLink_plug (s : State) (a : LinkAccess) : (s.presentLink a).plug = s.plug := rfl
@[simp] theorem State.presentLink_classes (s : State) (a : LinkAccess) : (s.presentLink a).classes = s.classes := rfl
@[simp] theorem State.presentLink_planner (s : State) (a : LinkAccess) : (s.presentLink a).planner = s.planner := rfl
@[simp] theorem State.presentLink_supply (s : State) (a : LinkAccess) : (s.presentLink a).supply = s.supply := rfl
@[simp] theorem State.presentLink_site (s : State) (a : LinkAccess) : (s.presentLink a).site = s.site := rfl
@[simp] theorem State.presentLink_attention (s : State) (a : LinkAccess) : (s.presentLink a).attention = s.attention := rfl
@[simp] theorem State.presentLink_pending (s : State) (a : LinkAccess) : (s.presentLink a).pending = s.pending := rfl

@[simp] theorem State.setWalk_clock (s : State) (w : Walk) : (s.setWalk w).clock = s.clock := rfl
@[simp] theorem State.setWalk_store (s : State) (w : Walk) : (s.setWalk w).store = s.store := rfl
@[simp] theorem State.setWalk_arbiter (s : State) (w : Walk) : (s.setWalk w).arbiter = s.arbiter := rfl
@[simp] theorem State.setWalk_bus (s : State) (w : Walk) : (s.setWalk w).bus = s.bus := rfl
@[simp] theorem State.setWalk_plug (s : State) (w : Walk) : (s.setWalk w).plug = s.plug := rfl
@[simp] theorem State.setWalk_classes (s : State) (w : Walk) : (s.setWalk w).classes = s.classes := rfl
@[simp] theorem State.setWalk_planner (s : State) (w : Walk) : (s.setWalk w).planner = s.planner := rfl
@[simp] theorem State.setWalk_supply (s : State) (w : Walk) : (s.setWalk w).supply = s.supply := rfl
@[simp] theorem State.setWalk_site (s : State) (w : Walk) : (s.setWalk w).site = s.site := rfl
@[simp] theorem State.setWalk_attention (s : State) (w : Walk) : (s.setWalk w).attention = s.attention := rfl
@[simp] theorem State.setWalk_pending (s : State) (w : Walk) : (s.setWalk w).pending = s.pending := rfl

@[simp] theorem State.setReceiver_clock (s : State) (r : Receiver) : (s.setReceiver r).clock = s.clock := rfl
@[simp] theorem State.setReceiver_store (s : State) (r : Receiver) : (s.setReceiver r).store = s.store := rfl
@[simp] theorem State.setReceiver_arbiter (s : State) (r : Receiver) : (s.setReceiver r).arbiter = s.arbiter := rfl
@[simp] theorem State.setReceiver_bus (s : State) (r : Receiver) : (s.setReceiver r).bus = s.bus := rfl
@[simp] theorem State.setReceiver_plug (s : State) (r : Receiver) : (s.setReceiver r).plug = s.plug := rfl
@[simp] theorem State.setReceiver_classes (s : State) (r : Receiver) : (s.setReceiver r).classes = s.classes := rfl
@[simp] theorem State.setReceiver_planner (s : State) (r : Receiver) : (s.setReceiver r).planner = s.planner := rfl
@[simp] theorem State.setReceiver_supply (s : State) (r : Receiver) : (s.setReceiver r).supply = s.supply := rfl
@[simp] theorem State.setReceiver_site (s : State) (r : Receiver) : (s.setReceiver r).site = s.site := rfl
@[simp] theorem State.setReceiver_attention (s : State) (r : Receiver) : (s.setReceiver r).attention = s.attention := rfl
@[simp] theorem State.setReceiver_pending (s : State) (r : Receiver) : (s.setReceiver r).pending = s.pending := rfl

@[simp] theorem State.advanceRound_clock (s : State) : (s.advanceRound).clock = s.clock := rfl
@[simp] theorem State.advanceRound_store (s : State) : (s.advanceRound).store = s.store := rfl
@[simp] theorem State.advanceRound_arbiter (s : State) : (s.advanceRound).arbiter = s.arbiter := rfl
@[simp] theorem State.advanceRound_link (s : State) : (s.advanceRound).link = s.link := rfl
@[simp] theorem State.advanceRound_bus (s : State) : (s.advanceRound).bus = s.bus := rfl
@[simp] theorem State.advanceRound_plug (s : State) : (s.advanceRound).plug = s.plug := rfl
@[simp] theorem State.advanceRound_classes (s : State) : (s.advanceRound).classes = s.classes := rfl
@[simp] theorem State.advanceRound_supply (s : State) : (s.advanceRound).supply = s.supply := rfl
@[simp] theorem State.advanceRound_site (s : State) : (s.advanceRound).site = s.site := rfl
@[simp] theorem State.advanceRound_attention (s : State) : (s.advanceRound).attention = s.attention := rfl
@[simp] theorem State.advanceRound_pending (s : State) : (s.advanceRound).pending = s.pending := rfl

@[simp] theorem State.keepRow_clock (s : State) (n : Fin 24) : (s.keepRow n).clock = s.clock := rfl
@[simp] theorem State.keepRow_store (s : State) (n : Fin 24) : (s.keepRow n).store = s.store := rfl
@[simp] theorem State.keepRow_arbiter (s : State) (n : Fin 24) : (s.keepRow n).arbiter = s.arbiter := rfl
@[simp] theorem State.keepRow_link (s : State) (n : Fin 24) : (s.keepRow n).link = s.link := rfl
@[simp] theorem State.keepRow_bus (s : State) (n : Fin 24) : (s.keepRow n).bus = s.bus := rfl
@[simp] theorem State.keepRow_plug (s : State) (n : Fin 24) : (s.keepRow n).plug = s.plug := rfl
@[simp] theorem State.keepRow_classes (s : State) (n : Fin 24) : (s.keepRow n).classes = s.classes := rfl
@[simp] theorem State.keepRow_supply (s : State) (n : Fin 24) : (s.keepRow n).supply = s.supply := rfl
@[simp] theorem State.keepRow_site (s : State) (n : Fin 24) : (s.keepRow n).site = s.site := rfl
@[simp] theorem State.keepRow_attention (s : State) (n : Fin 24) : (s.keepRow n).attention = s.attention := rfl
@[simp] theorem State.keepRow_pending (s : State) (n : Fin 24) : (s.keepRow n).pending = s.pending := rfl

@[simp] theorem State.writeOrder_clock (s : State) (h : Handle) (o : Order) : (s.writeOrder h o).clock = s.clock := rfl
@[simp] theorem State.writeOrder_arbiter (s : State) (h : Handle) (o : Order) : (s.writeOrder h o).arbiter = s.arbiter := rfl
@[simp] theorem State.writeOrder_link (s : State) (h : Handle) (o : Order) : (s.writeOrder h o).link = s.link := rfl
@[simp] theorem State.writeOrder_bus (s : State) (h : Handle) (o : Order) : (s.writeOrder h o).bus = s.bus := rfl
@[simp] theorem State.writeOrder_plug (s : State) (h : Handle) (o : Order) : (s.writeOrder h o).plug = s.plug := rfl
@[simp] theorem State.writeOrder_classes (s : State) (h : Handle) (o : Order) : (s.writeOrder h o).classes = s.classes := rfl
@[simp] theorem State.writeOrder_planner (s : State) (h : Handle) (o : Order) : (s.writeOrder h o).planner = s.planner := rfl
@[simp] theorem State.writeOrder_supply (s : State) (h : Handle) (o : Order) : (s.writeOrder h o).supply = s.supply := rfl
@[simp] theorem State.writeOrder_site (s : State) (h : Handle) (o : Order) : (s.writeOrder h o).site = s.site := rfl
@[simp] theorem State.writeOrder_attention (s : State) (h : Handle) (o : Order) : (s.writeOrder h o).attention = s.attention := rfl
@[simp] theorem State.writeOrder_pending (s : State) (h : Handle) (o : Order) : (s.writeOrder h o).pending = s.pending := rfl

/-! ### What follows every event -/

@[simp] theorem State.grant_clock (s : State) (r : Requester) (a : Access) : (s.grant r a).clock = s.clock := rfl
@[simp] theorem State.grant_store (s : State) (r : Requester) (a : Access) : (s.grant r a).store = s.store := rfl
@[simp] theorem State.grant_link (s : State) (r : Requester) (a : Access) : (s.grant r a).link = s.link := rfl
@[simp] theorem State.grant_plug (s : State) (r : Requester) (a : Access) : (s.grant r a).plug = s.plug := rfl
@[simp] theorem State.grant_classes (s : State) (r : Requester) (a : Access) : (s.grant r a).classes = s.classes := rfl
@[simp] theorem State.grant_supply (s : State) (r : Requester) (a : Access) : (s.grant r a).supply = s.supply := rfl
@[simp] theorem State.grant_site (s : State) (r : Requester) (a : Access) : (s.grant r a).site = s.site := rfl
@[simp] theorem State.grant_attention (s : State) (r : Requester) (a : Access) : (s.grant r a).attention = s.attention := rfl
@[simp] theorem State.grant_pending (s : State) (r : Requester) (a : Access) : (s.grant r a).pending = s.pending := rfl

@[simp] theorem State.settle_clock (s : State) : (s.settle).clock = s.clock := by unfold State.settle; split <;> [rfl; (dsimp only; split <;> rfl)]
@[simp] theorem State.settle_store (s : State) : (s.settle).store = s.store := by unfold State.settle; split <;> [rfl; (dsimp only; split <;> rfl)]
@[simp] theorem State.settle_link (s : State) : (s.settle).link = s.link := by unfold State.settle; split <;> [rfl; (dsimp only; split <;> rfl)]
@[simp] theorem State.settle_plug (s : State) : (s.settle).plug = s.plug := by unfold State.settle; split <;> [rfl; (dsimp only; split <;> rfl)]
@[simp] theorem State.settle_classes (s : State) : (s.settle).classes = s.classes := by unfold State.settle; split <;> [rfl; (dsimp only; split <;> rfl)]
@[simp] theorem State.settle_supply (s : State) : (s.settle).supply = s.supply := by unfold State.settle; split <;> [rfl; (dsimp only; split <;> rfl)]
@[simp] theorem State.settle_site (s : State) : (s.settle).site = s.site := by unfold State.settle; split <;> [rfl; (dsimp only; split <;> rfl)]
@[simp] theorem State.settle_attention (s : State) : (s.settle).attention = s.attention := by unfold State.settle; split <;> [rfl; (dsimp only; split <;> rfl)]
@[simp] theorem State.settle_pending (s : State) : (s.settle).pending = s.pending := by unfold State.settle; split <;> [rfl; (dsimp only; split <;> rfl)]

@[simp] theorem State.startRound_clock (s : State) : (s.startRound).clock = s.clock := by simp only [State.startRound]
@[simp] theorem State.startRound_store (s : State) : (s.startRound).store = s.store := by simp only [State.startRound]
@[simp] theorem State.startRound_arbiter (s : State) : (s.startRound).arbiter = s.arbiter := by simp only [State.startRound]
@[simp] theorem State.startRound_link (s : State) : (s.startRound).link = s.link := by simp only [State.startRound]
@[simp] theorem State.startRound_plug (s : State) : (s.startRound).plug = s.plug := by simp only [State.startRound]
@[simp] theorem State.startRound_classes (s : State) : (s.startRound).classes = s.classes := by simp only [State.startRound]
@[simp] theorem State.startRound_supply (s : State) : (s.startRound).supply = s.supply := by simp only [State.startRound]
@[simp] theorem State.startRound_site (s : State) : (s.startRound).site = s.site := by simp only [State.startRound]
@[simp] theorem State.startRound_attention (s : State) : (s.startRound).attention = s.attention := by simp only [State.startRound]
@[simp] theorem State.startRound_pending (s : State) : (s.startRound).pending = s.pending := by simp only [State.startRound]

@[simp] theorem State.startDue_clock (s : State) : (s.startDue).clock = s.clock := by by_cases h : (s.planner.round.isNone && s.planner.replan) = true <;> simp [State.startDue, h]
@[simp] theorem State.startDue_store (s : State) : (s.startDue).store = s.store := by by_cases h : (s.planner.round.isNone && s.planner.replan) = true <;> simp [State.startDue, h]
@[simp] theorem State.startDue_arbiter (s : State) : (s.startDue).arbiter = s.arbiter := by by_cases h : (s.planner.round.isNone && s.planner.replan) = true <;> simp [State.startDue, h]
@[simp] theorem State.startDue_link (s : State) : (s.startDue).link = s.link := by by_cases h : (s.planner.round.isNone && s.planner.replan) = true <;> simp [State.startDue, h]
@[simp] theorem State.startDue_plug (s : State) : (s.startDue).plug = s.plug := by by_cases h : (s.planner.round.isNone && s.planner.replan) = true <;> simp [State.startDue, h]
@[simp] theorem State.startDue_classes (s : State) : (s.startDue).classes = s.classes := by by_cases h : (s.planner.round.isNone && s.planner.replan) = true <;> simp [State.startDue, h]
@[simp] theorem State.startDue_supply (s : State) : (s.startDue).supply = s.supply := by by_cases h : (s.planner.round.isNone && s.planner.replan) = true <;> simp [State.startDue, h]
@[simp] theorem State.startDue_site (s : State) : (s.startDue).site = s.site := by by_cases h : (s.planner.round.isNone && s.planner.replan) = true <;> simp [State.startDue, h]
@[simp] theorem State.startDue_attention (s : State) : (s.startDue).attention = s.attention := by by_cases h : (s.planner.round.isNone && s.planner.replan) = true <;> simp [State.startDue, h]
@[simp] theorem State.startDue_pending (s : State) : (s.startDue).pending = s.pending := by by_cases h : (s.planner.round.isNone && s.planner.replan) = true <;> simp [State.startDue, h]

@[simp] theorem State.finish_clock (s : State) : (s.finish).clock = s.clock := by simp [State.finish]
@[simp] theorem State.finish_store (s : State) : (s.finish).store = s.store := by simp [State.finish]
@[simp] theorem State.finish_link (s : State) : (s.finish).link = s.link := by simp [State.finish]
@[simp] theorem State.finish_plug (s : State) : (s.finish).plug = s.plug := by simp [State.finish]
@[simp] theorem State.finish_classes (s : State) : (s.finish).classes = s.classes := by simp [State.finish]
@[simp] theorem State.finish_supply (s : State) : (s.finish).supply = s.supply := by simp [State.finish]
@[simp] theorem State.finish_site (s : State) : (s.finish).site = s.site := by simp [State.finish]
@[simp] theorem State.finish_attention (s : State) : (s.finish).attention = s.attention := by simp [State.finish]
@[simp] theorem State.finish_pending (s : State) : (s.finish).pending = s.pending := by simp [State.finish]

@[simp] theorem State.roundTimerExpires_clock (s : State) : (s.roundTimerExpires).clock = s.clock := by by_cases h : s.planner.round.isSome = true <;> simp [State.roundTimerExpires, h]
@[simp] theorem State.roundTimerExpires_store (s : State) : (s.roundTimerExpires).store = s.store := by by_cases h : s.planner.round.isSome = true <;> simp [State.roundTimerExpires, h]
@[simp] theorem State.roundTimerExpires_arbiter (s : State) : (s.roundTimerExpires).arbiter = s.arbiter := by by_cases h : s.planner.round.isSome = true <;> simp [State.roundTimerExpires, h]
@[simp] theorem State.roundTimerExpires_link (s : State) : (s.roundTimerExpires).link = s.link := by by_cases h : s.planner.round.isSome = true <;> simp [State.roundTimerExpires, h]
@[simp] theorem State.roundTimerExpires_plug (s : State) : (s.roundTimerExpires).plug = s.plug := by by_cases h : s.planner.round.isSome = true <;> simp [State.roundTimerExpires, h]
@[simp] theorem State.roundTimerExpires_classes (s : State) : (s.roundTimerExpires).classes = s.classes := by by_cases h : s.planner.round.isSome = true <;> simp [State.roundTimerExpires, h]
@[simp] theorem State.roundTimerExpires_supply (s : State) : (s.roundTimerExpires).supply = s.supply := by by_cases h : s.planner.round.isSome = true <;> simp [State.roundTimerExpires, h]
@[simp] theorem State.roundTimerExpires_site (s : State) : (s.roundTimerExpires).site = s.site := by by_cases h : s.planner.round.isSome = true <;> simp [State.roundTimerExpires, h]
@[simp] theorem State.roundTimerExpires_pending (s : State) : (s.roundTimerExpires).pending = s.pending := by by_cases h : s.planner.round.isSome = true <;> simp [State.roundTimerExpires, h]

/-! ### Notices and closes -/

@[simp] theorem State.noticeUnbound_clock (s : State) (h : Handle) (v : Nat) (p : Option (Fin 24)) (b : Bool) : (s.noticeUnbound h v p b).clock = s.clock := rfl
@[simp] theorem State.noticeUnbound_store (s : State) (h : Handle) (v : Nat) (p : Option (Fin 24)) (b : Bool) : (s.noticeUnbound h v p b).store = s.store := rfl
@[simp] theorem State.noticeUnbound_arbiter (s : State) (h : Handle) (v : Nat) (p : Option (Fin 24)) (b : Bool) : (s.noticeUnbound h v p b).arbiter = s.arbiter := rfl
@[simp] theorem State.noticeUnbound_link (s : State) (h : Handle) (v : Nat) (p : Option (Fin 24)) (b : Bool) : (s.noticeUnbound h v p b).link = s.link := rfl
@[simp] theorem State.noticeUnbound_plug (s : State) (h : Handle) (v : Nat) (p : Option (Fin 24)) (b : Bool) : (s.noticeUnbound h v p b).plug = s.plug := rfl
@[simp] theorem State.noticeUnbound_classes (s : State) (h : Handle) (v : Nat) (p : Option (Fin 24)) (b : Bool) : (s.noticeUnbound h v p b).classes = s.classes := rfl
@[simp] theorem State.noticeUnbound_supply (s : State) (h : Handle) (v : Nat) (p : Option (Fin 24)) (b : Bool) : (s.noticeUnbound h v p b).supply = s.supply := rfl
@[simp] theorem State.noticeUnbound_site (s : State) (h : Handle) (v : Nat) (p : Option (Fin 24)) (b : Bool) : (s.noticeUnbound h v p b).site = s.site := rfl
@[simp] theorem State.noticeUnbound_attention (s : State) (h : Handle) (v : Nat) (p : Option (Fin 24)) (b : Bool) : (s.noticeUnbound h v p b).attention = s.attention := rfl
@[simp] theorem State.noticeUnbound_pending (s : State) (h : Handle) (v : Nat) (p : Option (Fin 24)) (b : Bool) : (s.noticeUnbound h v p b).pending = s.pending := rfl

@[simp] theorem State.closeOrder_clock (s : State) (h : Handle) (o : Order) (x : OrderOutcome) : (s.closeOrder h o x).clock = s.clock := rfl
@[simp] theorem State.closeOrder_arbiter (s : State) (h : Handle) (o : Order) (x : OrderOutcome) : (s.closeOrder h o x).arbiter = s.arbiter := rfl
@[simp] theorem State.closeOrder_link (s : State) (h : Handle) (o : Order) (x : OrderOutcome) : (s.closeOrder h o x).link = s.link := rfl
@[simp] theorem State.closeOrder_plug (s : State) (h : Handle) (o : Order) (x : OrderOutcome) : (s.closeOrder h o x).plug = s.plug := rfl
@[simp] theorem State.closeOrder_supply (s : State) (h : Handle) (o : Order) (x : OrderOutcome) : (s.closeOrder h o x).supply = s.supply := rfl
@[simp] theorem State.closeOrder_site (s : State) (h : Handle) (o : Order) (x : OrderOutcome) : (s.closeOrder h o x).site = s.site := rfl
@[simp] theorem State.closeOrder_attention (s : State) (h : Handle) (o : Order) (x : OrderOutcome) : (s.closeOrder h o x).attention = s.attention := rfl
@[simp] theorem State.closeOrder_pending (s : State) (h : Handle) (o : Order) (x : OrderOutcome) : (s.closeOrder h o x).pending = s.pending := rfl

@[simp] theorem State.damaged_clock (s : State) (h : Handle) : (s.damaged h).clock = s.clock := by unfold State.damaged; split <;> rfl
@[simp] theorem State.damaged_arbiter (s : State) (h : Handle) : (s.damaged h).arbiter = s.arbiter := by unfold State.damaged; split <;> rfl
@[simp] theorem State.damaged_link (s : State) (h : Handle) : (s.damaged h).link = s.link := by unfold State.damaged; split <;> rfl
@[simp] theorem State.damaged_plug (s : State) (h : Handle) : (s.damaged h).plug = s.plug := by unfold State.damaged; split <;> rfl
@[simp] theorem State.damaged_supply (s : State) (h : Handle) : (s.damaged h).supply = s.supply := by unfold State.damaged; split <;> rfl
@[simp] theorem State.damaged_site (s : State) (h : Handle) : (s.damaged h).site = s.site := by unfold State.damaged; split <;> rfl
@[simp] theorem State.damaged_attention (s : State) (h : Handle) : (s.damaged h).attention = s.attention := by unfold State.damaged; split <;> rfl
@[simp] theorem State.damaged_pending (s : State) (h : Handle) : (s.damaged h).pending = s.pending := by unfold State.damaged; split <;> rfl

@[simp] theorem State.returnToPending_clock (s : State) (h : Handle) (o : Order) : (s.returnToPending h o).clock = s.clock := rfl
@[simp] theorem State.returnToPending_arbiter (s : State) (h : Handle) (o : Order) : (s.returnToPending h o).arbiter = s.arbiter := rfl
@[simp] theorem State.returnToPending_link (s : State) (h : Handle) (o : Order) : (s.returnToPending h o).link = s.link := rfl
@[simp] theorem State.returnToPending_plug (s : State) (h : Handle) (o : Order) : (s.returnToPending h o).plug = s.plug := rfl
@[simp] theorem State.returnToPending_classes (s : State) (h : Handle) (o : Order) : (s.returnToPending h o).classes = s.classes := rfl
@[simp] theorem State.returnToPending_supply (s : State) (h : Handle) (o : Order) : (s.returnToPending h o).supply = s.supply := rfl
@[simp] theorem State.returnToPending_site (s : State) (h : Handle) (o : Order) : (s.returnToPending h o).site = s.site := rfl
@[simp] theorem State.returnToPending_attention (s : State) (h : Handle) (o : Order) : (s.returnToPending h o).attention = s.attention := rfl
@[simp] theorem State.returnToPending_pending (s : State) (h : Handle) (o : Order) : (s.returnToPending h o).pending = s.pending := rfl

/-! ### The site link -/

@[simp] theorem State.linkDone_clock (s : State) (x : Status) (c : Bool) (p : List Byte) : (s.linkDone x c p).clock = s.clock := by unfold State.linkDone; split <;> rfl
@[simp] theorem State.linkDone_store (s : State) (x : Status) (c : Bool) (p : List Byte) : (s.linkDone x c p).store = s.store := by unfold State.linkDone; split <;> rfl
@[simp] theorem State.linkDone_arbiter (s : State) (x : Status) (c : Bool) (p : List Byte) : (s.linkDone x c p).arbiter = s.arbiter := by unfold State.linkDone; split <;> rfl
@[simp] theorem State.linkDone_bus (s : State) (x : Status) (c : Bool) (p : List Byte) : (s.linkDone x c p).bus = s.bus := by unfold State.linkDone; split <;> rfl
@[simp] theorem State.linkDone_plug (s : State) (x : Status) (c : Bool) (p : List Byte) : (s.linkDone x c p).plug = s.plug := by unfold State.linkDone; split <;> rfl
@[simp] theorem State.linkDone_classes (s : State) (x : Status) (c : Bool) (p : List Byte) : (s.linkDone x c p).classes = s.classes := by unfold State.linkDone; split <;> rfl
@[simp] theorem State.linkDone_planner (s : State) (x : Status) (c : Bool) (p : List Byte) : (s.linkDone x c p).planner = s.planner := by unfold State.linkDone; split <;> rfl
@[simp] theorem State.linkDone_supply (s : State) (x : Status) (c : Bool) (p : List Byte) : (s.linkDone x c p).supply = s.supply := by unfold State.linkDone; split <;> rfl
@[simp] theorem State.linkDone_site (s : State) (x : Status) (c : Bool) (p : List Byte) : (s.linkDone x c p).site = s.site := by unfold State.linkDone; split <;> rfl
@[simp] theorem State.linkDone_pending (s : State) (x : Status) (c : Bool) (p : List Byte) : (s.linkDone x c p).pending = s.pending := by unfold State.linkDone; split <;> rfl

/-! ### The site mode -/

@[simp] theorem State.changeMode_clock (s : State) (m : SiteMode) (r : Option Nat) : (s.changeMode m r).clock = s.clock := by unfold State.changeMode; split <;> rfl
@[simp] theorem State.changeMode_store (s : State) (m : SiteMode) (r : Option Nat) : (s.changeMode m r).store = s.store := by unfold State.changeMode; split <;> rfl
@[simp] theorem State.changeMode_arbiter (s : State) (m : SiteMode) (r : Option Nat) : (s.changeMode m r).arbiter = s.arbiter := by unfold State.changeMode; split <;> rfl
@[simp] theorem State.changeMode_link (s : State) (m : SiteMode) (r : Option Nat) : (s.changeMode m r).link = s.link := by unfold State.changeMode; split <;> rfl
@[simp] theorem State.changeMode_plug (s : State) (m : SiteMode) (r : Option Nat) : (s.changeMode m r).plug = s.plug := by unfold State.changeMode; split <;> rfl
@[simp] theorem State.changeMode_classes (s : State) (m : SiteMode) (r : Option Nat) : (s.changeMode m r).classes = s.classes := by unfold State.changeMode; split <;> rfl
@[simp] theorem State.changeMode_site (s : State) (m : SiteMode) (r : Option Nat) : (s.changeMode m r).site = s.site := by unfold State.changeMode; split <;> rfl
@[simp] theorem State.changeMode_pending (s : State) (m : SiteMode) (r : Option Nat) : (s.changeMode m r).pending = s.pending := by unfold State.changeMode; split <;> rfl

@[simp] theorem State.judgeCalls_clock (s : State) (x : Supply) : (s.judgeCalls x).clock = s.clock := by simp [State.judgeCalls]
@[simp] theorem State.judgeCalls_store (s : State) (x : Supply) : (s.judgeCalls x).store = s.store := by simp [State.judgeCalls]
@[simp] theorem State.judgeCalls_arbiter (s : State) (x : Supply) : (s.judgeCalls x).arbiter = s.arbiter := by simp [State.judgeCalls]
@[simp] theorem State.judgeCalls_link (s : State) (x : Supply) : (s.judgeCalls x).link = s.link := by simp [State.judgeCalls]
@[simp] theorem State.judgeCalls_plug (s : State) (x : Supply) : (s.judgeCalls x).plug = s.plug := by simp [State.judgeCalls]
@[simp] theorem State.judgeCalls_classes (s : State) (x : Supply) : (s.judgeCalls x).classes = s.classes := by simp [State.judgeCalls]
@[simp] theorem State.judgeCalls_site (s : State) (x : Supply) : (s.judgeCalls x).site = s.site := by simp [State.judgeCalls]
@[simp] theorem State.judgeCalls_pending (s : State) (x : Supply) : (s.judgeCalls x).pending = s.pending := by simp [State.judgeCalls]

@[simp] theorem State.restoreExpires_clock (s : State) : (s.restoreExpires).clock = s.clock := by unfold State.restoreExpires; split <;> simp
@[simp] theorem State.restoreExpires_store (s : State) : (s.restoreExpires).store = s.store := by unfold State.restoreExpires; split <;> simp
@[simp] theorem State.restoreExpires_arbiter (s : State) : (s.restoreExpires).arbiter = s.arbiter := by unfold State.restoreExpires; split <;> simp
@[simp] theorem State.restoreExpires_link (s : State) : (s.restoreExpires).link = s.link := by unfold State.restoreExpires; split <;> simp
@[simp] theorem State.restoreExpires_plug (s : State) : (s.restoreExpires).plug = s.plug := by unfold State.restoreExpires; split <;> simp
@[simp] theorem State.restoreExpires_classes (s : State) : (s.restoreExpires).classes = s.classes := by unfold State.restoreExpires; split <;> simp
@[simp] theorem State.restoreExpires_site (s : State) : (s.restoreExpires).site = s.site := by unfold State.restoreExpires; split <;> simp
@[simp] theorem State.restoreExpires_pending (s : State) : (s.restoreExpires).pending = s.pending := by unfold State.restoreExpires; split <;> simp

/-! ### Site settings -/

@[simp] theorem State.restoreIf_clock (s : State) (b : Bool) : (s.restoreIf b).clock = s.clock := by
  unfold State.restoreIf; split <;> simp
@[simp] theorem State.restoreIf_store (s : State) (b : Bool) : (s.restoreIf b).store = s.store := by
  unfold State.restoreIf; split <;> simp
@[simp] theorem State.restoreIf_arbiter (s : State) (b : Bool) : (s.restoreIf b).arbiter = s.arbiter := by
  unfold State.restoreIf; split <;> simp
@[simp] theorem State.restoreIf_link (s : State) (b : Bool) : (s.restoreIf b).link = s.link := by
  unfold State.restoreIf; split <;> simp
@[simp] theorem State.restoreIf_plug (s : State) (b : Bool) : (s.restoreIf b).plug = s.plug := by
  unfold State.restoreIf; split <;> simp
@[simp] theorem State.restoreIf_classes (s : State) (b : Bool) : (s.restoreIf b).classes = s.classes := by
  unfold State.restoreIf; split <;> simp
@[simp] theorem State.restoreIf_site (s : State) (b : Bool) : (s.restoreIf b).site = s.site := by
  unfold State.restoreIf; split <;> simp
@[simp] theorem State.restoreIf_pending (s : State) (b : Bool) : (s.restoreIf b).pending = s.pending := by
  unfold State.restoreIf; split <;> simp

@[simp] theorem State.roundIf_clock (s : State) (b : Bool) : (s.roundIf b).clock = s.clock := by
  unfold State.roundIf; split <;> simp
@[simp] theorem State.roundIf_store (s : State) (b : Bool) : (s.roundIf b).store = s.store := by
  unfold State.roundIf; split <;> simp
@[simp] theorem State.roundIf_arbiter (s : State) (b : Bool) : (s.roundIf b).arbiter = s.arbiter := by
  unfold State.roundIf; split <;> simp
@[simp] theorem State.roundIf_link (s : State) (b : Bool) : (s.roundIf b).link = s.link := by
  unfold State.roundIf; split <;> simp
@[simp] theorem State.roundIf_plug (s : State) (b : Bool) : (s.roundIf b).plug = s.plug := by
  unfold State.roundIf; split <;> simp
@[simp] theorem State.roundIf_classes (s : State) (b : Bool) : (s.roundIf b).classes = s.classes := by
  unfold State.roundIf; split <;> simp
@[simp] theorem State.roundIf_supply (s : State) (b : Bool) : (s.roundIf b).supply = s.supply := by
  unfold State.roundIf; split <;> simp
@[simp] theorem State.roundIf_site (s : State) (b : Bool) : (s.roundIf b).site = s.site := by
  unfold State.roundIf; split <;> simp
@[simp] theorem State.roundIf_pending (s : State) (b : Bool) : (s.roundIf b).pending = s.pending := by
  unfold State.roundIf; split <;> simp

@[simp] theorem State.replanIf_clock (s : State) (b : Bool) : (s.replanIf b).clock = s.clock := by
  unfold State.replanIf; split <;> simp
@[simp] theorem State.replanIf_store (s : State) (b : Bool) : (s.replanIf b).store = s.store := by
  unfold State.replanIf; split <;> simp
@[simp] theorem State.replanIf_arbiter (s : State) (b : Bool) : (s.replanIf b).arbiter = s.arbiter := by
  unfold State.replanIf; split <;> simp
@[simp] theorem State.replanIf_link (s : State) (b : Bool) : (s.replanIf b).link = s.link := by
  unfold State.replanIf; split <;> simp
@[simp] theorem State.replanIf_bus (s : State) (b : Bool) : (s.replanIf b).bus = s.bus := by
  unfold State.replanIf; split <;> simp
@[simp] theorem State.replanIf_plug (s : State) (b : Bool) : (s.replanIf b).plug = s.plug := by
  unfold State.replanIf; split <;> simp
@[simp] theorem State.replanIf_classes (s : State) (b : Bool) : (s.replanIf b).classes = s.classes := by
  unfold State.replanIf; split <;> simp
@[simp] theorem State.replanIf_supply (s : State) (b : Bool) : (s.replanIf b).supply = s.supply := by
  unfold State.replanIf; split <;> simp
@[simp] theorem State.replanIf_site (s : State) (b : Bool) : (s.replanIf b).site = s.site := by
  unfold State.replanIf; split <;> simp
@[simp] theorem State.replanIf_attention (s : State) (b : Bool) : (s.replanIf b).attention = s.attention := by
  unfold State.replanIf; split <;> simp
@[simp] theorem State.replanIf_pending (s : State) (b : Bool) : (s.replanIf b).pending = s.pending := by
  unfold State.replanIf; split <;> simp

@[simp] theorem State.storeSite_clock (s : State) (x : SiteSettings) : (s.storeSite x).clock = s.clock := by
  simp [State.storeSite]
@[simp] theorem State.storeSite_store (s : State) (x : SiteSettings) : (s.storeSite x).store = s.store := by
  simp [State.storeSite]
@[simp] theorem State.storeSite_arbiter (s : State) (x : SiteSettings) : (s.storeSite x).arbiter = s.arbiter := by
  simp [State.storeSite]
@[simp] theorem State.storeSite_link (s : State) (x : SiteSettings) : (s.storeSite x).link = s.link := by
  simp [State.storeSite]
@[simp] theorem State.storeSite_plug (s : State) (x : SiteSettings) : (s.storeSite x).plug = s.plug := by
  simp [State.storeSite]
@[simp] theorem State.storeSite_classes (s : State) (x : SiteSettings) : (s.storeSite x).classes = s.classes := by
  simp [State.storeSite]
@[simp] theorem State.storeSite_pending (s : State) (x : SiteSettings) : (s.storeSite x).pending = s.pending := by
  simp [State.storeSite]

@[simp] theorem State.storeSite_site (s : State) (x : SiteSettings) : (s.storeSite x).site = x := by
  simp [State.storeSite]

end Sys2Proof.Machine
end

