-- ==== Sys2Proof/Laws/Operands.lean ====
section
/-! SUPPORT. Numbers, handles and images: what the encodings of Machine/Operands.lean give. -/

namespace Sys2Proof.Machine

/-- A two-byte number is two bytes. -/
theorem be16_length (n : Nat) : (be16 n).length = 2 := rfl

/-- A four-byte number is four bytes. -/
theorem be32_length (n : Nat) : (be32 n).length = 4 := rfl

/-- A signed two-byte number is two bytes. -/
theorem beS16_length (n : Int) : (beS16 n).length = 2 := rfl

/-- A handle or its absence is two bytes. -/
theorem handleBytes_length (h : Option Handle) : (handleBytes h).length = 2 := by cases h <;> rfl

/-- A signed two-byte number is the two bytes read in two's complement. -/
theorem s16_eq_toInt (a b : Byte) : s16 a b = (a ++ b).toInt := by
  unfold s16 u16
  rw [BitVec.toInt_eq_toNat_cond, BitVec.toNat_append]
  have h1 := a.isLt; have h2 := b.isLt
  rw [← Nat.shiftLeft_add_eq_or_of_lt h2, Nat.shiftLeft_eq]
  split <;> split <;> omega

/-- A byte is a post's number exactly when it counts the same. -/
theorem eq_byte_post (ad : Byte) (n : Fin 24) : ad = byte n ↔ ad.toNat = n.val := by
  have h : (byte n.val).toNat = n.val := by
    have := n.isLt
    unfold byte; rw [BitVec.toNat_ofNat]; omega
  exact ⟨fun q => by rw [q, h], fun q => BitVec.eq_of_toNat_eq (by rw [q, h])⟩

/-- A post number below 24 names its post. -/
theorem postOf_eq {k : Nat} {n : Fin 24} (h : k = n) : postOf? k = some n := by
  unfold postOf?; rw [dif_pos (by omega)]; congr

/-- A class number below 16 names its class. -/
theorem classOf_eq {k : Nat} {n : Fin 16} (h : k = n) : classOf? k = some n := by
  unfold classOf?; rw [dif_pos (by omega)]; congr

/-- A class number above 15 names none. -/
theorem classOf_none {k : Nat} (h : 15 < k) : classOf? k = none := by
  unfold classOf?; rw [dif_neg (by omega)]

/-- A source number below 32 names its source. -/
theorem sourceOf_eq {k : Nat} {n : Fin 32} (h : k = n) : sourceOf? k = some n := by
  unfold sourceOf?; rw [dif_pos (by omega)]; congr

/-- The meter edge of a legal code. -/
theorem edgeOf_eq {k : Nat} (h : k ≤ 1) : edgeOf? k = some (if k = 0 then .rising else .falling) := by
  match k, h with
  | 0, _ => rfl
  | 1, _ => rfl

/-- A legal tier code names a tier. -/
theorem tierOf_some {k : Nat} (h : k ≤ 2) : ∃ t, tierOf? k = some t := by
  match k, h with
  | 0, _ => exact ⟨_, rfl⟩
  | 1, _ => exact ⟨_, rfl⟩
  | 2, _ => exact ⟨_, rfl⟩

/-- No heater state has a code above 2. -/
theorem heaterStateOf_none {n : Nat} (h : ¬ n ≤ 2) : heaterStateOf? n = none := by
  unfold heaterStateOf?; split <;> first | rfl | omega

/-- No call has a code above 2. -/
theorem callOf_none {n : Nat} (h : ¬ n ≤ 2) : callOf? n = none := by
  unfold callOf?; split <;> first | rfl | omega

/-- A request's handle that is a handle of the store. -/
theorem handle_of_raw {h : Handle} {r : RawHandle} (e : h.raw = r) : r.handle? = some h := by
  subst e; unfold RawHandle.handle? Handle.raw; simp

/-- The verdict on a request's handle is the verdict on the handle it spells. -/
theorem rawVerdict_of_raw {st : Store} {h : Handle} {r : RawHandle} (e : h.raw = r) : st.rawVerdict r = st.verdict h := by
  unfold Store.rawVerdict; rw [handle_of_raw e]; rfl

/-- An unknown handle spells no slot, or one whose verdict is unknown. -/
theorem rawVerdict_unknown {st : Store} {r : RawHandle} (h : st.rawVerdict r = .unknown) :
    r.handle? = none ∨ ∃ x, r.handle? = some x ∧ st.verdict x = .unknown := by
  unfold Store.rawVerdict at h
  cases hr : r.handle? with
  | none => exact .inl rfl
  | some x => rw [hr] at h; exact .inr ⟨x, rfl, h⟩

/-- A handle that is not unknown spells a slot. -/
theorem rawVerdict_known {st : Store} {r : RawHandle} {v : Verdict} (hv : v ≠ .unknown) (h : st.rawVerdict r = v) :
    ∃ x, r.handle? = some x ∧ st.verdict x = v := by
  unfold Store.rawVerdict at h
  cases hr : r.handle? with
  | none => rw [hr] at h; exact absurd h.symm hv
  | some x => rw [hr] at h; exact ⟨x, rfl, h⟩

/-- An order record image is 39 bytes. -/
theorem order_image_length (o : Order) : o.image.length = 39 := by
  unfold Order.image Handle.bytes RawHandle.bytes estimateBytes
  cases o.estimate <;> simp [be16_length, beS16_length]

/-- The damaged form, byte by byte. -/
theorem damagedImage_eq (h : Handle) (v : Nat) : damagedImage h v =
    [byte h.slot, byte h.gen, 0] ++ be16 v ++ List.replicate 6 0 ++ [5] ++ List.replicate 21 0 ++ [8, 0, 0, 5, 0, 0] := by
  unfold damagedImage
  simp [Handle.bytes, RawHandle.bytes, Handle.raw, OrderState.code, OrderOutcome.code, bitAt, be16]

/-- The target clamp. -/
theorem clampTarget_eq (t : Int) : clampTarget t = min 280 (max 100 t) := rfl

/-- The earliest-start clamp acts when the earliest start reads as ahead and after the departure. -/
theorem clampsEarliest_iff (now e d : Nat) : clampsEarliest now e d = true ↔
    0 ≤ aheadMinutes now e ∧ aheadMinutes now d < aheadMinutes now e := by
  unfold clampsEarliest isBehind liesAfter; simp

end Sys2Proof.Machine
end

