-- ==== Sys2Proof/Laws/Store.lean ====
section
/-! SUPPORT. The order store: slots, binding table, vehicle index, user sets, and the finding of a record. -/

namespace Sys2Proof.Machine

/-- Another entry of a vector is unchanged by a write. -/
theorem vector_set_ne {α} {k} (v : Vector α k) (n m : Fin k) (x : α) (h : m ≠ n) : (v.set n x)[m] = v[m] := by
  have : (n : Nat) ≠ m := fun q => h (Fin.ext q.symm)
  exact Vector.getElem_set_ne _ _ this

/-- The written entry of a vector. -/
theorem vector_set_eq {α} {k} (v : Vector α k) (n : Fin k) (x : α) : (v.set n x)[n] = x := Vector.getElem_set_self _

/-- The first number that passes a test. -/
theorem find_finRange {m : Nat} (p : Fin m → Bool) (n : Fin m) (h : p n = true) (hl : ∀ x < n, p x = false) :
    (List.finRange m).find? p = some n := by
  rw [List.find?_eq_some_iff_append]
  refine ⟨h, (List.finRange m).take n, (List.finRange m).drop (n+1), ?_, ?_⟩
  · have : (List.finRange m)[n.val]'(by simp) = n := by simp
    conv => rhs; rhs; lhs; rw [← this]
    rw [← List.drop_eq_getElem_cons, List.take_append_drop]
  · intro a ha
    obtain ⟨i, hi, rfl⟩ := List.getElem_of_mem ha
    simp at hi ⊢
    have := hl ⟨i, by omega⟩ (by rw [Fin.lt_def]; exact hi)
    simpa using this

/-- The next occupied slot is the lowest one. -/
theorem nextOccupied_of {st : Store} {p : Fin 64 → Bool} {b : Nat} {n : Fin 64} (hp : ∀ m, p m = true ↔ b ≤ m.val)
    (h : st.lowestOccupied b n) : st.nextOccupied p = some n := by
  obtain ⟨h1, h2, h3⟩ := h
  unfold Store.nextOccupied allSlots
  rw [List.find?_eq_some_iff_append]
  refine ⟨by simp [hp, h1, h2], ?_⟩
  refine ⟨(List.finRange 64).take n, (List.finRange 64).drop (n+1), ?_, ?_⟩
  · have : (List.finRange 64)[n.val]'(by simp) = n := by simp
    conv => rhs; rhs; lhs; rw [← this]
    rw [← List.drop_eq_getElem_cons, List.take_append_drop]
  · intro a ha
    obtain ⟨i, hi, rfl⟩ := List.getElem_of_mem ha
    simp at hi ⊢
    by_cases hpa : p ⟨i, by omega⟩ = true
    · right
      exact h3 ⟨i, by omega⟩ (by simpa [hp] using hpa) (by rw [Fin.lt_def]; exact hi)
    · left; simpa using hpa

/-- No slot is occupied. -/
theorem nextOccupied_none {st : Store} {p : Fin 64 → Bool} (h : ∀ n, p n = true → (st.dir n).occupancy = .free) :
    st.nextOccupied p = none := by
  unfold Store.nextOccupied allSlots
  rw [List.find?_eq_none]
  intro x _
  simpa using h x

/-- Clearing the table leaves the slots. -/
@[simp] theorem clearTable_slots (st : Store) (p) : (st.clearTable p).slots = st.slots := by
  unfold Store.clearTable; cases p <;> rfl

/-- Clearing the table leaves the index. -/
@[simp] theorem clearTable_index (st : Store) (p) : (st.clearTable p).index = st.index := by
  unfold Store.clearTable; cases p <;> rfl

/-- Clearing the table clears the one entry named. -/
theorem clearTable_get (st : Store) (p : Option (Fin 24)) (q : Fin 24) :
    (st.clearTable p).table[q] = if p = some q then none else st.table[q] := by
  unfold Store.clearTable
  cases p with
  | none => simp
  | some p =>
    simp only [Option.elim, Store.setTable, Option.some.injEq]
    by_cases h : p = q
    · subst h; rw [vector_set_eq, if_pos rfl]
    · rw [vector_set_ne _ _ _ _ (fun z => h z.symm), if_neg h]

/-- Lists in ascending vehicle number. -/
abbrev Asc (l : List VehicleList) := l.Pairwise (fun a b => a.vehicle < b.vehicle)

/-- A list of the index after a replacement is the new one or stood before. -/
theorem mem_setVehicleList (v : Nat) (es) : ∀ l x, x ∈ setVehicleList v es l → x = ⟨v, es⟩ ∧ es ≠ [] ∨ x ∈ l := by
  intro l
  induction l with
  | nil => intro x h; unfold setVehicleList at h; split at h <;> simp_all
  | cons a t ih =>
    intro x h
    unfold setVehicleList at h
    split at h
    · split at h <;> simp_all; grind
    · split at h
      · split at h <;> simp_all
      · simp at h
        rcases h with h | h
        · simp [h]
        · rcases ih x h with q | q
          · exact .inl q
          · simp [q]

/-- A replacement keeps the lists ascending. -/
theorem setVehicleList_asc (v : Nat) (es) : ∀ l, Asc l → Asc (setVehicleList v es l) := by
  intro l
  induction l with
  | nil => intro _; unfold setVehicleList; split <;> simp
  | cons a t ih =>
    intro h
    have h' := List.pairwise_cons.mp h
    unfold setVehicleList
    split
    · rename_i ha
      split
      · exact h'.2
      · exact List.pairwise_cons.mpr ⟨fun x hx => by have := h'.1 x hx; simp; omega, h'.2⟩
    · split
      · split
        · exact h
        · refine List.pairwise_cons.mpr ⟨fun x hx => ?_, h⟩
          simp at hx; rcases hx with rfl | hx
          · simpa
          · have := h'.1 x hx; simp; omega
      · refine List.pairwise_cons.mpr ⟨fun x hx => ?_, ih h'.2⟩
        rcases mem_setVehicleList v es t x hx with ⟨rfl, _⟩ | q
        · simp; omega
        · exact h'.1 x q

/-- What a vehicle number finds after a replacement. -/
theorem setVehicleList_find (v : Nat) (es) : ∀ l, Asc l → ∀ w, (setVehicleList v es l).find? (fun x => x.vehicle = w) =
    if w = v then (if es.isEmpty then none else some ⟨v, es⟩) else l.find? (fun x => x.vehicle = w) := by
  intro l
  have none_of : ∀ (t : List VehicleList) (w : Nat), (∀ x ∈ t, w < x.vehicle) → t.find? (fun x => x.vehicle = w) = none := by
    intro t w h; rw [List.find?_eq_none]; intro x hx; have := h x hx; simp; omega
  induction l with
  | nil => intro _ w; unfold setVehicleList; by_cases hw : w = v <;> cases he : es.isEmpty <;> simp [hw, List.find?]; omega
  | cons a t ih =>
    intro h w
    have h' := List.pairwise_cons.mp h
    unfold setVehicleList
    split
    · rename_i ha
      by_cases hw : w = v
      · subst hw
        cases he : es.isEmpty
        · simp
        · simp; have := none_of t w (fun x hx => by have := h'.1 x hx; omega); simpa using this
      · cases he : es.isEmpty
        · simp [hw, List.find?, ha, Ne.symm hw]
        · simp [hw, List.find?, ha, Ne.symm hw]
    · rename_i ha
      split
      · rename_i hlt
        by_cases hw : w = v
        · subst hw
          cases he : es.isEmpty
          · simp
          · have := none_of (a :: t) w (fun x hx => by
              simp at hx; rcases hx with rfl | hx
              · exact hlt
              · have := h'.1 x hx; omega)
            simpa using this
        · cases he : es.isEmpty
          · simp [hw, List.find?, Ne.symm hw]
          · simp [hw]
      · by_cases hw : a.vehicle = w
        · have : w ≠ v := by omega
          simp [hw, this, List.find?]
        · have := ih h'.2 w
          simp only [List.find?, hw, decide_false]; exact this

/-- The entries of a vehicle after a replacement. -/
theorem vehicleEntries_setVehicleList {st : Store} (hs : st.indexSound) (v : Nat) (es : List IndexEntry) (w : Nat) :
    Store.vehicleEntries { st with index := setVehicleList v es st.index } w =
      if w = v then es else st.vehicleEntries w := by
  unfold Store.vehicleEntries
  dsimp only
  rw [setVehicleList_find v es st.index hs.1 w]
  split
  · cases he : es with
    | nil => simp
    | cons a t => simp
  · rfl

/-- A replacement keeps the index sound. -/
theorem indexSound_setVehicleList {st : Store} (hs : st.indexSound) (v : Nat) (es : List IndexEntry) :
    Store.indexSound { st with index := setVehicleList v es st.index } := by
  refine ⟨setVehicleList_asc v es _ hs.1, ?_⟩
  intro l hl
  rcases mem_setVehicleList v es _ l hl with ⟨rfl, h⟩ | q
  · exact h
  · exact hs.2 l q

/-- Soundness of the index depends on the index alone. -/
theorem indexSound_congr {a b : Store} (h : a.index = b.index) (hs : b.indexSound) : a.indexSound := by
  unfold Store.indexSound; rw [h]; exact hs

/-- The entries of a vehicle depend on the index alone. -/
theorem vehicleEntries_congr {a b : Store} (h : a.index = b.index) (v) : a.vehicleEntries v = b.vehicleEntries v := by
  unfold Store.vehicleEntries; rw [h]

/-- Where an entry is inserted. -/
theorem insertEntry_split (now : Nat) (e : IndexEntry) : ∀ l, ∃ a b, l = a ++ b ∧ insertEntry now e l = a ++ e :: b ∧
    (∀ x ∈ a, aheadMinutes now x.departure ≤ aheadMinutes now e.departure) ∧
    (∀ x ∈ b.head?, aheadMinutes now e.departure < aheadMinutes now x.departure) := by
  intro l
  induction l with
  | nil => exact ⟨[], [], rfl, rfl, by simp, by simp⟩
  | cons a t ih =>
    unfold insertEntry
    by_cases h : liesAfter now a.departure e.departure = true
    · rw [if_pos h]
      refine ⟨[], a :: t, rfl, rfl, by simp, ?_⟩
      intro x hx; simp at hx; subst hx; unfold liesAfter at h; simpa using h
    · rw [if_neg h]
      obtain ⟨x, y, h1, h2, h3, h4⟩ := ih
      refine ⟨a :: x, y, by rw [h1]; rfl, by rw [h2]; rfl, ?_, h4⟩
      intro z hz; simp at hz; rcases hz with rfl | hz
      · unfold liesAfter at h; simpa using h
      · exact h3 z hz

/-- The entries of a vehicle after a removal. -/
theorem indexRemove_vehicleEntries {st : Store} (hs : st.indexSound) (v : Nat) (h : Handle) (w : Nat) :
    (st.indexRemove v h).vehicleEntries w =
      if w = v then (st.vehicleEntries w).filter (fun e => e.handle ≠ h) else st.vehicleEntries w := by
  unfold Store.indexRemove; rw [vehicleEntries_setVehicleList hs]
  by_cases q : w = v
  · subst q; rw [if_pos rfl]
  · rw [if_neg q, if_neg q]

/-- Clearing the table leaves the entries of a vehicle. -/
theorem clearTable_vehicleEntries (st : Store) (p) (w) : (st.clearTable p).vehicleEntries w = st.vehicleEntries w :=
  vehicleEntries_congr (clearTable_index st p) w

/-- A class entry after a slot leaves every user set. -/
theorem dropUser_get (cs : Vector ClassEntry 16) (n) (c : Fin 16) :
    (dropUser cs n)[c] = { cs[c] with users := cs[c].users.filter (fun m => m ≠ n) } := by
  unfold dropUser; simp

/-- An unknown handle finds no record. -/
theorem findLive_unknown {st : Store} {r : RawHandle} (h : st.rawVerdict r = .unknown) :
    st.findLive r = .refused .unknownHandle := by
  unfold Store.findLive
  rcases rawVerdict_unknown h with q | ⟨x, q, v⟩
  · rw [q]
  · rw [q]; dsimp only; rw [v]

/-- A closed handle finds no live record. -/
theorem findLive_closed {st : Store} {r : RawHandle} (h : st.rawVerdict r = .closed) :
    st.findLive r = .refused .closed := by
  unfold Store.findLive
  obtain ⟨x, q, v⟩ := rawVerdict_known (by simp) h
  rw [q]; dsimp only; rw [v]

/-- A live handle whose record is damaged. -/
theorem findLive_damaged {st : Store} {h : Handle} {r : RawHandle} (e : h.raw = r) (hv : st.verdict h = .live)
    (hr : st.readOrder h.slot = none) : st.findLive r = .damaged h := by
  unfold Store.findLive; rw [handle_of_raw e]; dsimp only; rw [hv]; dsimp only; rw [hr]

/-- A live handle finds its record. -/
theorem findLive_order {st : Store} {h : Handle} {r : RawHandle} {o : Order} (e : h.raw = r) (hv : st.verdict h = .live)
    (hr : st.readOrder h.slot = some o) : st.findLive r = .order h o := by
  unfold Store.findLive; rw [handle_of_raw e]; dsimp only; rw [hv]; dsimp only; rw [hr]

/-- The order bound at a post is found. -/
theorem findBound_order {s : State} {n h o} (hb : s.boundOrder n h o) : s.store.findBound n h = .order o := by
  obtain ⟨a, b, c⟩ := hb
  unfold Store.findBound; rw [if_pos ⟨a, b⟩, c]

/-- An access on the order bound at a post acts on its record. -/
theorem onBound_order {s t : State} {n h o} (hb : s.boundOrder n h o) (ht : t.store = s.store) (f : Order → State) :
    t.onBound n h f = f o := by
  unfold State.onBound; rw [ht, findBound_order hb]

/-- An access whose target no longer stands, or whose record is damaged. -/
theorem onBound_other {s t : State} {n h} (hq : s.staleTarget n h ∧ t = s.completed ∨
      s.store.table[n] = some h ∧ s.store.verdict h = .live ∧ s.store.readOrder h.slot = none ∧
        t = s.completed.damaged h) (f : Order → State) : s.completed.onBound n h f = t := by
  unfold State.onBound Store.findBound
  have k2 : s.completed.store = s.store := rfl
  rw [k2]
  rcases hq with ⟨a, rfl⟩ | ⟨a, b, c, rfl⟩
  · rw [if_neg a]
  · rw [if_pos ⟨a, b⟩, c]

/-- The entry with strictly fewest ahead-minutes is the soonest. -/
theorem soonest_eq (now : Nat) (e : IndexEntry) : ∀ l : List IndexEntry, e ∈ l →
    (∀ x ∈ l, x ≠ e → aheadMinutes now e.departure < aheadMinutes now x.departure) → soonest now l = some e := by
  have none_iff : ∀ l, soonest now l = none → l = [] := by
    intro l h
    cases l with
    | nil => rfl
    | cons a t =>
      unfold soonest at h
      cases hs : soonest now t with
      | none => rw [hs] at h; simp at h
      | some x => rw [hs] at h; dsimp only at h; split at h <;> simp at h
  have mem : ∀ l x, soonest now l = some x → x ∈ l := by
    intro l
    induction l with
    | nil => intro x h; simp [soonest] at h
    | cons a t ih =>
      intro x h
      unfold soonest at h
      cases hs : soonest now t with
      | none => rw [hs] at h; simp at h; simp [h]
      | some y =>
        rw [hs] at h; dsimp only at h
        split at h
        · simp at h; subst h; simp [ih y hs]
        · simp at h; simp [h]
  intro l
  induction l with
  | nil => intro h; simp at h
  | cons a t ih =>
    intro hm hl
    unfold soonest
    by_cases ha : a = e
    · subst ha
      cases hs : soonest now t with
      | none => rfl
      | some y =>
        dsimp only
        have hy := mem t y hs
        by_cases q : y = a
        · subst q; simp
        · have := hl y (by simp [hy]) q
          rw [if_neg (by omega)]
    · have het : e ∈ t := by simpa [Ne.symm ha] using hm
      have := ih het (fun x hx => hl x (by simp [hx]))
      rw [this]
      dsimp only
      have h2 := hl a (by simp) ha
      rw [if_pos h2]

/-- A class with parameters is defined. -/
theorem classUndefined_false {s : State} {k : Nat} {c : Fin 16} (h : k = c) (hp : s.classes[c].params ≠ none) :
    s.classUndefined k = false := by
  unfold State.classUndefined; rw [classOf_eq h]
  cases hq : s.classes[c].params
  · exact absurd hq hp
  · simp only [Option.bind_some]; rw [hq]; rfl

end Sys2Proof.Machine
end

