-- ==== Sys2Proof/Laws/Link.lean ====
section
/-! SUPPORT. The site link port: taking a request, carrying it out, and how an access ends. -/

namespace Sys2Proof.Machine

/-- A ready port takes any request that it would not post. -/
theorem takes_of_ready {s : State} {r : Request} (h : s.ready) : s.link.takes r = true := by
  obtain ⟨hp, h1, h2⟩ := h
  simp [Link.takes, Link.blocked, Config.postingSlots, hp, h1, h2]

/-- A port with no request in progress and an empty buffer takes a request that is not blocked. -/
theorem takes_iff {l : Link} {r : Request} :
    l.takes r = true ↔ l.inProgress = none ∧ l.buffer = none ∧ l.blocked r = false := by
  simp [Link.takes, and_assoc]

/-- What the coming of a request that is not posted can do. -/
theorem carryOut_cases (s : State) (r : Request) (tag : Byte) (e : State → State) :
    s.carryOut r tag e = s ∨
      s.link.takes r = true ∧ (s.link.posting = [] ∧ s.carryOut r tag e = e (s.beginRequest r tag) ∨
        s.link.posting ≠ [] ∧ s.carryOut r tag e = s.beginRequest r tag) := by
  unfold State.carryOut State.takeUnposted
  by_cases h : s.link.takes r = true <;> by_cases q : s.link.posting = [] <;> simp [h, q]

/-- What the coming of a change can do. -/
theorem changeRequest_cases (s : State) (c : Change) (tag : Byte) :
    s.changeRequest c tag = s ∨
      s.link.takes (.change c) = true ∧
        (s.link.wouldPost (.change c) = true ∧
            s.changeRequest c tag = (s.beginRequest (.change c) tag).postOrRefuse c ∨
          s.link.posting = [] ∧ s.changeRequest c tag = (s.beginRequest (.change c) tag).changeUnposted c ∨
          s.link.posting ≠ [] ∧ s.changeRequest c tag = s.beginRequest (.change c) tag) := by
  unfold State.changeRequest State.takeUnposted
  by_cases h : s.link.takes (.change c) = true <;> by_cases w : s.link.wouldPost (.change c) = true <;>
    by_cases q : s.link.posting = [] <;> simp [h, w, q]

/-- A ready port carries the request out. -/
theorem carryOut_ready {s : State} (h : s.ready) (r : Request) (tag : Byte) (e : State → State) :
    s.carryOut r tag e = e (s.beginRequest r tag) := by
  simp [State.carryOut, State.takeUnposted, takes_of_ready h, h.1]

/-- Carrying a request out leaves the queue of commands. -/
theorem carryOut_pending (s : State) (r : Request) (tag : Byte) (e : State → State)
    (h : (e (s.beginRequest r tag)).pending = s.pending) : (s.carryOut r tag e).pending = s.pending := by
  rcases carryOut_cases s r tag e with q | ⟨_, ⟨_, q⟩ | ⟨_, q⟩⟩ <;> rw [q]
  · exact h
  · rfl

/-- A refusal replies and changes nothing else. -/
theorem beginRequest_refuse (s : State) (r : Request) (tag : Byte) (x : Status) :
    (s.beginRequest r tag).refuse x = s.replied r tag x false [] := rfl

/-- An answer replies and changes nothing else. -/
theorem beginRequest_answer (s : State) (r : Request) (tag : Byte) (x : Status) (c : Bool) (p : List Byte) :
    (s.beginRequest r tag).answer x c p = s.replied r tag x c p := rfl

/-- A presented access is the request's in progress. -/
theorem beginRequest_present (s : State) (r : Request) (tag : Byte) (a : LinkAccess) :
    (s.beginRequest r tag).presentLink a = s.inAccess r tag a := rfl

/-- A change the port does not post is carried out. -/
theorem changeRequest_unposted {s : State} (h : s.unposted) (c : Change) (tag : Byte) :
    s.changeRequest c tag = (s.beginRequest (.change c) tag).changeUnposted c := by
  simp [State.changeRequest, State.takeUnposted, takes_of_ready h.1, Link.wouldPost, h.2, h.1.1]

/-- A change the port posts is judged for posting. -/
theorem changeRequest_postable {s : State} {c : Change} (h : s.postable c) (tag : Byte) :
    s.changeRequest c tag = (s.beginRequest (.change c) tag).postOrRefuse c := by
  obtain ⟨h1, h2, h3, h4, h5⟩ := h
  have hs : s.link.sameSlot c = false := by unfold Link.sameSlot; simpa using h5
  have hl : ¬ (2 ≤ s.link.posting.length) := by omega
  simp [State.changeRequest, Link.takes, h1, h2, Link.blocked, Link.wouldPost, h3, hs, hl, Config.postingSlots]

/-- The row of a request is its coming to the port. -/
theorem exec_command (r : Request) (tag : Byte) (s : State) :
    exec (r.command tag) s = .next (s.takeRequest r tag).finish := by
  rcases r with _ | (_ | _ | _) | _ <;> rfl

/-- No request waits for posted changes, or some are left: nothing is carried out. -/
theorem carryWaiting_none {s : State} (h : s.link.posting ≠ [] ∨ ∀ p ∈ s.link.inProgress, p.stage ≠ .taken) :
    s.carryWaiting = s := by
  unfold State.carryWaiting
  split
  · rename_i hp hr
    rcases h with h | h
    · exact absurd hp h
    · exact absurd rfl (h _ hr)
  · rfl

/-- The waiting request is carried out. -/
theorem carryWaiting_some {s : State} {r : Request} {tag : Byte} (hp : s.link.posting = [])
    (h : s.link.inProgress = some { request := r, tag := tag, stage := .taken }) :
    s.carryWaiting = s.startDue.requestEffect r := by
  unfold State.carryWaiting; rw [hp, h]

/-- The effect of a request leaves the queue of commands. -/
@[simp] theorem requestEffect_pending (s : State) (r : Request) : (s.requestEffect r).pending = s.pending := by
  cases r <;> dsimp only [State.requestEffect]
  case place f => unfold State.placeRequest; split <;> simp
  case change c => unfold State.changeUnposted; split <;> simp
  case lookup h =>
    unfold State.lookupRequest; split
    · simp
    · split <;> simp
  case find v => unfold State.findRequest; split <;> simp
  case walkStart form =>
    unfold State.walkStartRequest; split
    · unfold State.slotStep; split <;> simp [State.endWalk]
    · unfold State.rankStep; split <;> simp [State.endWalk]
    · simp
  case walkNext =>
    unfold State.walkNextRequest; split
    · simp
    · unfold State.slotStep; split <;> simp [State.endWalk]
    · unfold State.rankStep; split <;> simp [State.endWalk]
    · unfold State.rankStep; split <;> simp [State.endWalk]
  case setSite f => unfold State.setSiteRequest; split <;> simp
  case readSite => simp [State.readSiteRequest]
  case setLink a b => unfold State.setLinkRequest; split <;> simp
  case setPost f =>
    unfold State.setPostRequest; split
    · simp
    · split
      · simp
      · split
        · simp
        · dsimp only; unfold State.setService; split
          · split <;> simp
          · split <;> simp
          · simp
  case readPost k => unfold State.readPostRequest; split <;> simp
  case setClass f =>
    unfold State.setClassRequest; split
    · simp
    · split
      · rfl
      · unfold State.applyClass; split <;> simp
  case clearClass k =>
    unfold State.clearClassRequest; split
    · simp
    · split <;> simp
  case readClass k => unfold State.readClassRequest; split <;> simp
  case setTime m sec => unfold State.setTimeRequest; split <;> simp
  case readTime => simp [State.readTimeRequest]
  case setMode m => unfold State.setModeRequest; split <;> simp
  case replan => simp [State.replanRequest]
  case readAttention src =>
    unfold State.readAttentionRequest; split
    · simp
    · split <;> simp
  case clearAttention src fl =>
    unfold State.clearAttentionRequest; split
    · simp
    · split <;> simp
  case setMasks m g => simp [State.setMasksRequest]

/-- The coming of a request leaves the queue of commands. -/
@[simp] theorem takeRequest_pending (s : State) (r : Request) (tag : Byte) : (s.takeRequest r tag).pending = s.pending := by
  unfold State.takeRequest
  split
  · rename_i c
    rcases changeRequest_cases s c tag with q | ⟨_, ⟨_, q⟩ | ⟨_, q⟩ | ⟨_, q⟩⟩ <;> rw [q]
    · unfold State.postOrRefuse; split
      · simp [beginRequest_refuse, State.replied]
      · rfl
    · unfold State.changeUnposted; split
      · simp [beginRequest_refuse, State.replied]
      · rfl
    · rfl
  · exact carryOut_pending _ _ _ _ (requestEffect_pending _ _)

/-- What follows a LINK access leaves the queue of commands. -/
@[simp] theorem finishLink_pending (s : State) : s.finishLink.pending = s.pending := by
  unfold State.finishLink State.carryWaiting
  split <;> simp

/-- A request that has been answered leaves nothing to carry out. -/
theorem finishLink_replied (s : State) (r : Request) (tag : Byte) (x : Status) (c : Bool) (p : List Byte) :
    (s.replied r tag x c p).finishLink = (s.replied r tag x c p).finish := by
  unfold State.finishLink
  rw [carryWaiting_none (.inr fun _ h => by cases h)]

/-- The first check decides, or the rest do. -/
theorem firstRefusal_cons (b : Bool) (x : Status) (l) : firstRefusal ((b, x) :: l) = if b then some x else firstRefusal l := rfl

/-- A test of an optional field. -/
theorem option_any_iff {α} (o : Option α) (p : α → Bool) : o.any p = true ↔ ∃ d ∈ o, p d = true := by
  cases o <;> simp

/-- A LINK access that ends is in flight. -/
theorem ends_inFlight {s : State} {a : LinkAccess} {k} (h : s.ends a k) : s.arbiter.inFlight = some (.link a) := by
  rcases h with ⟨r, tag, h, _⟩ | ⟨c, rest, h, rfl, _⟩
  · exact h.1
  · exact h.1

/-- How a LINK access ends. -/
theorem ends_linkDone {s : State} {a : LinkAccess} {k} (h : s.ends a k) (t : State) (ht : t.link = s.link) (x : Status)
    (c : Bool) (p : List Byte) : t.linkDone x c p = k t x c p := by
  rcases h with ⟨r, tag, ⟨_, h2, h3⟩, rfl⟩ | ⟨d, rest, ⟨_, h2⟩, _, rfl⟩
  · simp only [State.linkDone, State.answer, Link.answer, State.replied, ht, h2, h3]
  · unfold State.linkDone
    rw [ht, h2]
    dsimp only
    split
    · unfold State.drained; rw [ht]
    · unfold State.droppedChange; rw [ht]; rfl

/-- An access of the request in progress ends with its reply. -/
theorem serves_ends {s : State} {a : LinkAccess} {r tag} (h : s.serves a r tag) :
    s.ends a (fun t x c p => t.replied r tag x c p) := .inl ⟨r, tag, h, rfl⟩

/-- An access of the request in progress is answered. -/
theorem serves_linkDone {s : State} {a : LinkAccess} {r tag} (h : s.serves a r tag) (t : State) (ht : t.link = s.link)
    (x : Status) (c : Bool) (p : List Byte) : t.linkDone x c p = t.replied r tag x c p := ends_linkDone (serves_ends h) t ht x c p

/-- A damage leaves the link. -/
theorem damaged_link (s : State) (h : Handle) : (s.damaged h).link = s.link := by simp

/-- A receiver that hunts discards the bytes before a start byte. -/
theorem hunting_fold (s : State) (bytes : List Byte) (hs : s.link.receiver = .hunting) (h : (0xA5 : Byte) ∉ bytes) :
    bytes.foldl State.receiveByte s = s := by
  induction bytes with
  | nil => rfl
  | cons x xs ih =>
    simp only [List.mem_cons, not_or] at h
    rw [List.foldl_cons]
    have e : s.receiveByte x = s := by
      unfold State.receiveByte; rw [hs]
      exact if_neg (Ne.symm h.1)
    rw [e, ih h.2]

/-- Bytes of another count than a frame's make no frame. -/
theorem frameOf_none {len : Byte} {got : List Byte} (h : got.length ≠ len.toNat + 3) : frameOf len got = none := by
  unfold frameOf
  split
  · exact if_neg (by simp at h; omega)
  · rfl

/-- The bytes of a frame, once they have all arrived. -/
theorem frameOf_some {len code tag check : Byte} {payload : List Byte} (h : payload.length = len.toNat) :
    frameOf len (code :: tag :: (payload ++ [check])) =
      some { code := code, tag := tag, payload := payload, good := check = crc8 (len :: code :: tag :: payload) } := by
  unfold frameOf
  dsimp only
  rw [if_pos (by simp [h])]
  simp [← h, eq_comm]

/-- A byte of a frame that is not its last. -/
theorem receiveByte_body {s : State} {len : Byte} {got : List Byte} (b : Byte) (hs : s.link.receiver = .body len got) :
    s.receiveByte b =
      match frameOf len (got ++ [b]) with
      | some f => (s.setReceiver .hunting).frameComplete f
      | none => s.setReceiver (.body len (got ++ [b])) := by
  unfold State.receiveByte
  generalize s.link.receiver = r at hs
  subst hs
  rfl

/-- An unfinished frame stays in the receiver. -/
theorem body_partial (len : Byte) (bytes : List Byte) : ∀ (s : State) (got : List Byte), s.link.receiver = .body len got →
    (got ++ bytes).length < len.toNat + 3 →
      bytes.foldl State.receiveByte s = s.setReceiver (.body len (got ++ bytes)) := by
  induction bytes with
  | nil =>
    intro s got hs _
    unfold State.setReceiver; rw [List.append_nil, ← hs]; rfl
  | cons x xs ih =>
    intro s got hs h
    simp only [List.length_append, List.length_cons] at h
    rw [List.foldl_cons, receiveByte_body x hs, frameOf_none (by simp; omega)]
    dsimp only
    rw [ih _ (got ++ [x]) rfl (by simp; omega)]
    simp [State.setReceiver]

/-- The last byte of a frame completes it. -/
theorem body_full {s : State} {len code tag check : Byte} {got bytes payload : List Byte}
    (hs : s.link.receiver = .body len got) (hb : bytes ≠ []) (hl : payload.length = len.toNat)
    (h : got ++ bytes = code :: tag :: (payload ++ [check])) :
    bytes.foldl State.receiveByte s = (s.setReceiver .hunting).frameComplete
      { code := code, tag := tag, payload := payload, good := check = crc8 (len :: code :: tag :: payload) } := by
  obtain ⟨init, last, rfl⟩ : ∃ init last, bytes = init ++ [last] := ⟨_, _, (List.dropLast_append_getLast hb).symm⟩
  have hlen : (got ++ init).length + 1 = len.toNat + 3 := by
    have := congrArg List.length h
    simp at this ⊢; omega
  rw [List.foldl_append, body_partial len init s got hs (by omega), List.foldl_cons, List.foldl_nil,
    receiveByte_body last rfl, List.append_assoc, h, frameOf_some hl]
  rfl

/-- A SET POST that names the service alone configures nothing else. -/
theorem configure_service (p : Post) (f : SetPostFields) (h : f.mask = 1) : p.configure f = p := by
  unfold Post.configure SetPostFields.heater? SetPostFields.feedLimit? SetPostFields.pollMode?
  rw [h]; rfl

/-- A post changed to itself. -/
theorem modify_id (b : Bus) (n : Fin 24) (f : Post → Post) (h : ∀ p, f p = p) : b.modify n f = b := by
  unfold Bus.modify; rw [h]; simp

end Sys2Proof.Machine
end

