-- ==== Sys2Proof/Laws/Engine.lean ====
section
/-! SUPPORT. The arbiter, the start of a round, and the engine's operations on the post records. -/

namespace Sys2Proof.Machine

/-- The arbiter serves the first requester after its pointer that presents an access. -/
theorem settle_first {s : State} {r a} (hf : s.arbiter.inFlight = none) (ha : s.presented r = some a)
    (ho : r = s.arbiter.pointer.next ∨ s.presented s.arbiter.pointer.next = none ∧
          (r = s.arbiter.pointer.next.next ∨ s.presented s.arbiter.pointer.next.next = none ∧ r = s.arbiter.pointer)) :
    s.settle = s.grant r a := by
  have h3 : s.arbiter.pointer.next.next.next = s.arbiter.pointer := by cases s.arbiter.pointer <;> rfl
  unfold State.settle
  rw [if_neg (by rw [hf]; simp)]
  dsimp only
  rcases ho with rfl | ⟨h1, rfl | ⟨h2, rfl⟩⟩
  · rw [ha]
  · rw [h1, ha]
  · rw [h1, h2, h3, ha]

/-- Nothing is presented: nothing is served. -/
theorem settle_none {s : State} (h1 : s.presented .link = none) (h2 : s.presented .posts = none)
    (h3 : s.presented .plan = none) : s.settle = s := by
  unfold State.settle
  split
  · rfl
  · dsimp only
    have : ∀ r, s.presented r = none := by intro r; cases r <;> assumption
    rw [this, this, this]

/-- A replan pending starts a round when none is in flight. -/
theorem finish_start {s : State} (h1 : s.planner.round = none) (h2 : s.planner.replan = true) :
    s.finish = s.startRound.settle := by
  unfold State.finish State.startDue; rw [h1, h2]; rfl

/-- No round is due: the arbiter alone acts. -/
theorem finish_settle {s : State} (h : s.planner.round ≠ none ∨ s.planner.replan = false) : s.finish = s.settle := by
  unfold State.finish State.startDue
  rw [if_neg]
  rcases h with h | h
  · cases hr : s.planner.round <;> simp_all
  · simp [h]

/-- A started round is in flight. -/
theorem startRound_round (s : State) : s.startRound.planner.round.isSome = true := rfl

/-- The arbiter neither starts nor ends a round. -/
theorem settle_round (s : State) : s.settle.planner.round.isSome = s.planner.round.isSome := by
  have g : ∀ r a, (s.grant r a).planner.round.isSome = s.planner.round.isSome := by
    intro r a; unfold State.grant; dsimp only; split
    · simp [Planner.granted]
    · rfl
  unfold State.settle
  split
  · rfl
  · dsimp only; split <;> simp [g]

/-- A round is in flight once one was, or was due. -/
theorem startDue_round (s : State) (h : s.planner.round.isSome = true ∨ s.planner.replan = true) :
    s.startDue.planner.round.isSome = true := by
  unfold State.startDue
  split
  · exact startRound_round s
  · rcases h with h | h
    · exact h
    · cases hr : s.planner.round
      · simp_all
      · simp

/-- A round is in flight after an event once one was, or was due. -/
theorem finish_round (s : State) (h : s.planner.round.isSome = true ∨ s.planner.replan = true) :
    s.finish.planner.round.isSome = true := by
  unfold State.finish; rw [settle_round]; exact startDue_round s h

/-- A mode change leaves the round. -/
theorem changeMode_round (s : State) (m r) : (s.changeMode m r).planner.round = s.planner.round := by
  unfold State.changeMode; split <;> rfl

/-- A mode change keeps a replan pending. -/
theorem changeMode_replan (s : State) (m r) (h : s.planner.replan = true) : (s.changeMode m r).planner.replan = true := by
  unfold State.changeMode; split
  · exact h
  · rfl

/-- The round timer leaves a round in flight. -/
theorem roundTimerExpires_round (s : State) : s.roundTimerExpires.planner.round.isSome = true := by
  unfold State.roundTimerExpires; split
  · assumption
  · exact startRound_round s

/-- The arbiter leaves the post records. -/
theorem settle_posts (s : State) : s.settle.bus.posts = s.bus.posts := by
  have g : ∀ r a, (s.grant r a).bus.posts = s.bus.posts := by
    intro r a; unfold State.grant; dsimp only; split <;> rfl
  unfold State.settle
  split
  · rfl
  · dsimp only; split <;> simp [g]

/-- The start of a round marks every post. -/
theorem startDue_posts (s : State) (n : Fin 24) :
    s.startDue.bus.posts[n] =
      if s.planner.round.isNone && s.planner.replan then { s.bus.posts[n] with roundMark := true } else s.bus.posts[n] := by
  unfold State.startDue
  split
  · simp [State.startRound, Bus.mapPosts]
  · rfl

/-- What follows an event changes a post record by the round mark alone. -/
theorem finish_post (s : State) (n : Fin 24) :
    s.finish.bus.posts[n] =
      if s.planner.round.isNone && s.planner.replan then { s.bus.posts[n] with roundMark := true } else s.bus.posts[n] := by
  unfold State.finish; rw [settle_posts, startDue_posts]

/-- The post records after one is changed. -/
theorem modify_posts (b : Bus) (n f) : (b.modify n f).posts = b.posts.set n (f b.posts[n]) := rfl

/-- A grant zeroed twice. -/
theorem setRecorded_zero_idem (p : Post) : (p.setRecorded 0).setRecorded 0 = p.setRecorded 0 := by
  unfold Post.setRecorded Post.belowSent Post.atOrAboveSent
  dsimp only
  congr 1
  cases p.inService <;> cases p.claim <;> cases p.sent <;> simp

/-- Vehicle changes at several posts. -/
theorem foldl_vehicleChange (table : Vector (Option Handle) 24) : ∀ (l : List (Fin 24)), l.Nodup → ∀ (b : Bus),
    (∀ n : Fin 24, (l.foldl (fun c n => c.vehicleChange table n) b).posts[n] =
      if n ∈ l then { b.posts[n].setRecorded 0 with baseline := none } else b.posts[n]) ∧
    (l.foldl (fun c n => c.vehicleChange table n) b).queue = b.queue ++ l.flatMap (fun n => boundAccess table n (fun h => .unbind n h .vehicleChange)) ∧
    (l.foldl (fun c n => c.vehicleChange table n) b).rotation = b.rotation ∧
    (l.foldl (fun c n => c.vehicleChange table n) b).exchange = b.exchange := by
  intro l
  induction l with
  | nil => intro _ b; simp
  | cons a t ih =>
    intro hn b
    have hn' := List.nodup_cons.mp hn
    obtain ⟨h1, h2, h3, h4⟩ := ih hn'.2 (b.vehicleChange table a)
    rw [List.foldl_cons]
    have hp : (b.vehicleChange table a).posts = b.posts.set a { b.posts[a].setRecorded 0 with baseline := none } := rfl
    refine ⟨?_, ?_, h3, h4⟩
    · intro n
      rw [h1 n, hp]
      by_cases q : n = a
      · subst q; rw [if_neg hn'.1, vector_set_eq, if_pos (by simp)]
      · rw [vector_set_ne _ _ _ _ q]
        by_cases z : n ∈ t
        · rw [if_pos z, if_pos (by simp [z])]
        · rw [if_neg z, if_neg (by simp [z, q])]
    · rw [h2]
      show (b.queue ++ _) ++ _ = _
      rw [List.flatMap_cons, List.append_assoc]

/-- The binding attempts a trigger presents. -/
theorem trigger_spec (b : Bus) (sel : Fin 24 → Bool) : ∃ l : List (Fin 24), (b.trigger sel) = { b with queue := b.queue ++ l.map .bind } ∧
    l.Pairwise (fun x y => x < y) ∧ ∀ n, n ∈ l ↔ sel n = true ∧ PostAccess.bind n ∉ b.queue ∧ b.posts[n].inService = true ∧
        b.posts[n].state = .occupied ∧ b.posts[n].silent = false ∧ b.posts[n].current.vehicle ≠ 0 := by
  refine ⟨_, rfl, ?_, ?_⟩
  · exact List.Pairwise.filter _ (List.sortedLT_finRange 24 |>.pairwise)
  · intro n
    rw [List.mem_filter]
    generalize b.posts[n] = z
    unfold Post.qualifies allPosts
    simp
    grind

/-- The elements that equal one and pass a test. -/
theorem filter_eq_and {α} [DecidableEq α] (l : List α) (hn : l.Nodup) (n : α) (hm : n ∈ l) (P : α → Bool) :
    l.filter (fun q => decide (q = n) && P q) = if P n then [n] else [] := by
  induction l with
  | nil => simp at hm
  | cons a t ih =>
    have hn' := List.nodup_cons.mp hn
    by_cases h : a = n
    · subst h
      have ht : t.filter (fun q => decide (q = a) && P q) = [] := by
        rw [List.filter_eq_nil_iff]; intro x hx; simp; rintro rfl; exact absurd hx hn'.1
      cases hp : P a <;> simp [hp, ht]
    · have : n ∈ t := by simpa [Ne.symm h] using hm
      rw [List.filter_cons, if_neg (by simp [h]), ih hn'.2 this]

/-- A trigger at one post. -/
theorem trigger_one (b : Bus) (n : Fin 24) (c : Bool) : b.trigger (fun q => q = n && c) =
    { b with queue := b.queue ++
        if c = true ∧ b.posts[n].qualifies = true ∧ .bind n ∉ b.queue then [.bind n] else [] } := by
  unfold Bus.trigger Bus.attempts Bus.present
  congr 2
  have := filter_eq_and allPosts (List.nodup_finRange 24) n (List.mem_finRange n)
    (fun q => c && b.posts[q].qualifies && !b.queue.contains (.bind q))
  have e : (allPosts.filter (fun m => (decide (m = n) && c) && b.posts[m].qualifies && !b.queue.contains (.bind m))) =
    allPosts.filter (fun q => decide (q = n) && (c && b.posts[q].qualifies && !b.queue.contains (.bind q))) := by
    congr 1; funext q; simp [Bool.and_assoc]
  rw [e, this]
  cases c
  · simp
  · cases hq : b.posts[n].qualifies
    · simp
    · by_cases z : PostAccess.bind n ∈ b.queue <;> simp [z]

/-- A post at the entry into SHED. -/
theorem enterShed_post (b : Bus) (table) (n : Fin 24) : (b.enterShed table).posts[n] = b.posts[n].enterShed := by
  unfold Bus.enterShed Bus.present Bus.mapPosts; simp

/-- The accesses presented at the entry into SHED. -/
theorem enterShed_queue (b : Bus) (table : Vector (Option Handle) 24) : (b.enterShed table).queue = b.queue ++
          (List.finRange 24).flatMap (fun n => (table[n]).elim [] (fun h => [.zeroGrant n h])) := by
  unfold Bus.enterShed Bus.present Bus.mapPosts boundAccess allPosts; with_reducible rfl

/-- The entry into SHED leaves the rotation pointer. -/
theorem enterShed_rotation (b : Bus) (table) : (b.enterShed table).rotation = b.rotation := by
  unfold Bus.enterShed Bus.present Bus.mapPosts; with_reducible rfl

/-- The entry into SHED leaves the exchange. -/
theorem enterShed_exchange (b : Bus) (table) : (b.enterShed table).exchange = b.exchange := by
  unfold Bus.enterShed Bus.present Bus.mapPosts; with_reducible rfl

/-- A handle leaves the ranking and the round. -/
theorem planner_remove (p : Planner) (h : Handle) : p.remove h = { p with
      ranking := p.ranking.filter (fun k => k ≠ h)
      round := p.round.map (fun r => { r with
        rows := r.rows.map (fun e => if e.row.handle = h then { e with struck := true } else e) }) } := rfl

/-- The lowest post that passes a test. -/
theorem find_allPosts {p : Fin 24 → Bool} {n : Fin 24} (h : p n = true) (hm : ∀ m < n, p m = false) : allPosts.find? p = some n := by
  unfold allPosts
  rw [List.find?_eq_some_iff_getElem]
  refine ⟨h, n.val, by simp, by simp, ?_⟩
  intro j hj
  have := hm ⟨j, by omega⟩ (by simpa [Fin.lt_def] using hj)
  simpa using this

/-- The first post after the rotation pointer that passes a test. -/
theorem find_rotation {r n : Fin 24} {p : Fin 24 → Bool} (h : p n = true) (hm : ∀ m, p m = true → n - (r + 1) ≤ m - (r + 1)) :
    (allPosts.map (fun i => r + 1 + i)).find? p = some n := by
  rw [List.find?_map]
  have : allPosts.find? (p ∘ fun i => r + 1 + i) = some (n - (r + 1)) := by
    apply find_allPosts
    · show p (r + 1 + (n - (r + 1))) = true
      rw [add_sub_cancel]; exact h
    · intro m hmn
      show p (r + 1 + m) = false
      rw [← Bool.not_eq_true]
      intro q
      have := hm _ q
      rw [add_sub_cancel_left] at this
      exact absurd hmn (not_lt.mpr this)
  rw [this]; simp

/-- The sent grant, the claim and the final setpoint owed after an unanswered exchange. -/
theorem sentUnanswered_eq (p : Post) (level : Option Nat) : p.sentUnanswered level = { p with
        sent := (match p.sent, level with
        | some w, some l => some (if w < l * 100 then l * 100 else w)
        | w, _ => w)
        claim := p.claim || (p.inService && level.any (fun l => p.recorded < l * 100) &&
          (match p.sent, level with
        | some w, some l => some (if w < l * 100 then l * 100 else w)
        | w, _ => w).any (fun w => p.recorded < w))
        finalOwed := p.finalOwed || (!p.inService && level.any (fun l => p.recorded < l * 100) &&
          (match p.sent, level with
        | some w, some l => some (if w < l * 100 then l * 100 else w)
        | w, _ => w).any (fun w => p.recorded < w)) } := by
  unfold Post.sentUnanswered Post.withSent overshoots
  cases level with
  | none => cases hs : p.sent <;> simp <;> rw [← hs]
  | some l =>
    cases hs : p.sent with
    | none => simp
    | some w =>
      have : max w (l * 100) = if w < l * 100 then l * 100 else w := by split <;> omega
      simp [this, Bool.and_assoc]

/-- What a report carries of the vehicle and the cabin. -/
theorem carried_eq {x : Exchange} {p : Post} {r : ReportFields} {vehicle cabin}
    (h : if x.plugInSince = false ∧ (x.pollMode = .direct ∨ x.fetchMark = true) ∧ p.state ≠ .empty then
        vehicle = r.vehicle ∧ cabin = r.cabin else vehicle = 0 ∧ cabin = none) :
    carriedVehicle x p r = vehicle ∧ carriedCabin x p r = cabin := by
  have : (x.fetched && p.state ≠ .empty) = true ↔ x.plugInSince = false ∧ (x.pollMode = .direct ∨ x.fetchMark = true) ∧ p.state ≠ .empty := by
    unfold Exchange.fetched
    cases x.plugInSince <;> cases x.pollMode <;> cases x.fetchMark <;> simp
  unfold carriedVehicle carriedCabin
  simp only [this]
  split at h
  · rename_i q; rw [if_pos q, if_pos q]; exact ⟨h.1.symm, h.2.symm⟩
  · rename_i q; rw [if_neg q, if_neg q]; exact ⟨h.1.symm, h.2.symm⟩

/-- A post record after an answered exchange. -/
theorem answered_eq {p : Post} {x : Exchange} {r : ReportFields} {q0 : Post} {vehicle cabin}
    (hi : p.inService = true) (hv : carriedVehicle x p r = vehicle) (hc : carriedCabin x p r = cabin)
    (hq : q0 = { p with
        sent := if x.level = none then p.sent else some (r.applied * 100)
        claim := p.claim || x.level.any (fun l => p.recorded < l * 100 && p.recorded < r.applied * 100)
        current :=
          if p.roundMark then p.current
          else
            { vehicle := if vehicle = 0 then p.current.vehicle else vehicle, cabin := cabin.or p.current.cabin
              outside := r.outside }
        held :=
          if p.roundMark then
            { vehicle := if vehicle = 0 then p.held.vehicle else some vehicle, cabin := cabin.or p.held.cabin
              outside := some r.outside }
          else p.held
        heaterState := some r.heater
        age := if cabin = none then min 3 (p.age + 1) else 0
        silence := 0, silent := false
        lastCall := if r.call = .none then p.lastCall else r.call
        baseline := if p.state = .bound then some r.energy else p.baseline }) :
    p.answered x r = if p.state = .bound ∧ (r.heater = .fault ∨ p.age = 2 ∧ cabin = none) then q0.setRecorded 0 else q0 := by
  have hstall : (replyStall p r cabin).isSome = true ↔ r.heater = .fault ∨ p.age = 2 ∧ cabin = none := by
    unfold replyStall ageSteps
    by_cases z1 : r.heater = .fault
    · simp [z1]
    · by_cases z2 : p.age = 2 <;> cases cabin <;> simp [z1, z2]
  have hage : ageAfter p.age cabin = if cabin = none then min 3 (p.age + 1) else 0 := by
    unfold ageAfter; cases cabin <;> simp
  have hcab : ∀ y : Option Int, cabin.orElse (fun _ => y) = cabin.or y := by intro y; cases cabin <;> rfl
  have hsent : p.sentAnswered x.level r.applied = { p with
        sent := if x.level = none then p.sent else some (r.applied * 100)
        claim := p.claim || x.level.any (fun l => p.recorded < l * 100 && p.recorded < r.applied * 100) } := by
    unfold Post.sentAnswered Post.withSent overshoots
    cases x.level with
    | none => simp
    | some l => simp [hi]
  unfold Post.answered
  rw [hv, hc]
  dsimp only
  simp only [hstall]
  rw [hsent, hage]
  subst hq
  unfold Post.takeReport Report.take PendingReport.take
  simp only [hcab]
  cases hm : p.roundMark <;> simp

/-- A line changes level. -/
theorem lineFilter_change (f g : LineFilter) (level : Level)
    (h : level = f.line ∧ g = f ∨ level ≠ f.line ∧ g = { f with line := level, timer := if level = f.filtered then none else some 0 }) :
    f.change level = g := by
  unfold LineFilter.change
  rcases h with ⟨a, rfl⟩ | ⟨a, rfl⟩
  · rw [if_pos a]
  · rw [if_neg a]

/-- Shed is called. -/
theorem shedCalled_eq {x : Supply} {b : Bool} (h : b = true ↔ x.shed.filtered = .high ∨ x.forced = .shed) : x.shedCalled = b := by
  unfold Supply.shedCalled; rw [Bool.eq_iff_iff, h]; simp

/-- Limit is called. -/
theorem limitCalled_eq {x : Supply} {b : Bool} (h : b = true ↔ x.limit.filtered = .high ∨ x.forced = .limited) : x.limitCalled = b := by
  unfold Supply.limitCalled; rw [Bool.eq_iff_iff, h]; simp

end Sys2Proof.Machine
end

