-- ==== Sys2Proof/Laws/Rounds.lean ====
section
/-! SUPPORT. Planning rounds: the ranking, the sweep, and the grant a write-back takes. -/

namespace Sys2Proof.Machine

/-- The sweep is empty when no order is PENDING. -/
theorem sweepList_isEmpty (st : Store) : (sweepList st).isEmpty = true ↔ ∀ n, (st.dir n).state ≠ some .pending := by
  unfold sweepList allSlots; simp [List.filter_eq_nil_iff]

/-- The bound handles a ranking does not hold. -/
theorem unranked_iff {st : Store} {l : List Handle} {n : Fin 24} {x : Fin 24 × Handle} :
    ((st.table[n]).bind (fun h => if l.contains h then none else some (n, h))) = some x ↔
      ∃ h, st.table[n] = some h ∧ h ∉ l ∧ (n, h) = x := by
  rw [Option.bind_eq_some_iff]
  constructor
  · rintro ⟨h, a, b⟩
    by_cases q : h ∈ l
    · simp [q] at b
    · simp [q] at b; exact ⟨h, a, q, b⟩
  · rintro ⟨h, a, b, c⟩
    exact ⟨h, a, by simp [b, c]⟩

/-- Ranking a row keeps the rows. -/
theorem rankInsert_perm (now fb e) : ∀ l, (rankInsert now fb e l).Perm (e :: l) := by
  intro l
  induction l with
  | nil => exact .refl _
  | cons a t ih =>
    unfold rankInsert; split
    · exact .refl _
    · exact (ih.cons a).trans (.swap e a t)

/-- Ranking keeps the rows. -/
theorem rankRows_perm (now fb) : ∀ l, (rankRows now fb l).Perm l := by
  intro l
  induction l with
  | nil => exact .refl _
  | cons a t ih => unfold rankRows; exact (rankInsert_perm now fb a _).trans (ih.cons a)

/-- One row ranks before another: by slack, then by post number. -/
abbrev RanksBefore (now : Nat) (fb : Int) (a b : RowEntry) : Prop :=
  a.row.slack now fb < b.row.slack now fb ∨ a.row.slack now fb = b.row.slack now fb ∧ a.row.post ≤ b.row.post

/-- The ranking test. -/
theorem ranksBefore_iff (now fb) (a b : RowEntry) : a.ranksBefore now fb b = true ↔ RanksBefore now fb a b := by
  unfold RowEntry.ranksBefore RanksBefore; simp

/-- Ranking a row keeps the order. -/
theorem rankInsert_sorted (now fb e) : ∀ l, l.Pairwise (RanksBefore now fb) → (rankInsert now fb e l).Pairwise (RanksBefore now fb) := by
  intro l
  induction l with
  | nil => intro _; simp [rankInsert]
  | cons a t ih =>
    intro h
    have h' := List.pairwise_cons.mp h
    unfold rankInsert
    split
    · rename_i q
      have q' := (ranksBefore_iff now fb e a).mp q
      refine List.pairwise_cons.mpr ⟨?_, h⟩
      intro x hx
      simp at hx
      rcases hx with rfl | hx
      · exact q'
      · have := h'.1 x hx
        simp only [RanksBefore, Fin.le_def] at *; omega
    · rename_i q
      have q' := fun z => q ((ranksBefore_iff now fb e a).mpr z)
      refine List.pairwise_cons.mpr ⟨?_, ih h'.2⟩
      intro x hx
      rw [(rankInsert_perm now fb e t).mem_iff] at hx
      simp at hx
      rcases hx with rfl | hx
      · rcases lt_trichotomy (a.row.slack now fb) (x.row.slack now fb) with z | z | z
        · exact .inl z
        · rcases le_total a.row.post x.row.post with w | w
          · exact .inr ⟨z, w⟩
          · exact (q' (.inr ⟨z.symm, w⟩)).elim
        · exact (q' (.inl z)).elim
      · exact h'.1 x hx

/-- The ranked rows stand in order. -/
theorem rankRows_sorted (now fb) : ∀ l, (rankRows now fb l).Pairwise (RanksBefore now fb) := by
  intro l
  induction l with
  | nil => exact List.Pairwise.nil
  | cons a t ih => unfold rankRows; exact rankInsert_sorted now fb a _ ih

/-- The floor pass gives each row a grant. -/
theorem floorPass_length : ∀ l r, (floorPass l r).1.length = l.length := by
  intro l; induction l with
  | nil => intro r; rfl
  | cons a t ih => intro r; unfold floorPass; simp [ih]

/-- The fill pass gives each row a grant. -/
theorem fillPass_length : ∀ l r, (fillPass l r).1.length = l.length := by
  intro l; induction l with
  | nil => intro r; rfl
  | cons a t ih => intro r; obtain ⟨a, g⟩ := a; unfold fillPass; simp [ih]

/-- The allocation gives each row a grant. -/
theorem allocate_length (h r l) : (allocate h r l).1.length = l.length := by
  unfold allocate; dsimp only; rw [fillPass_length, floorPass_length]

/-- No access that holds a grant back waits. -/
theorem holdsBack_any {q : List PostAccess} {n h} : q.any (PostAccess.holdsGrantBack n h) = false ↔
    (∀ cause, .stall n h cause ∉ q) ∧ .unbind n h .vehicleChange ∉ q ∧ .zeroGrant n h ∉ q := by
  rw [List.any_eq_false]
  constructor
  · intro H
    refine ⟨fun c hc => ?_, fun hc => ?_, fun hc => ?_⟩ <;> exact H _ hc (by simp [PostAccess.holdsGrantBack])
  · rintro ⟨a, b, c⟩ x hx
    unfold PostAccess.holdsGrantBack
    split
    · rename_i p k cause; simp; rintro rfl rfl; exact a _ hx
    · rename_i p k; simp; rintro rfl rfl; exact b hx
    · rename_i p k; simp; rintro rfl rfl; exact c hx
    · simp

/-- The conditions hold: the grant is taken. -/
theorem takenGrant_pos {s : State} {n h d x} (hc : s.bus.posts[n].inService = true ∧ s.bus.posts[n].state = .bound ∧ s.store.table[n] = some h ∧
              s.bus.posts[n].silent = false ∧ s.supply.mode ≠ .shed ∧ (d = .heating ∨ d = .holding) ∧
              (∀ cause, .stall n h cause ∉ s.bus.queue) ∧ .unbind n h .vehicleChange ∉ s.bus.queue ∧
              .zeroGrant n h ∉ s.bus.queue) : s.takenGrant n h d x = x := by
  unfold State.takenGrant
  rw [if_pos]
  obtain ⟨a1, a2, a3, a4, a5, a6, a7, a8, a9⟩ := hc
  exact ⟨a1, a2, a3, a4, a5, a6, holdsBack_any.mpr ⟨a7, a8, a9⟩⟩

/-- A condition fails: the grant taken is 0. -/
theorem takenGrant_neg {s : State} {n h d x} (hc : s.bus.posts[n].inService = false ∨ s.bus.posts[n].state ≠ .bound ∨ s.store.table[n] ≠ some h ∨
              s.bus.posts[n].silent = true ∨ s.supply.mode = .shed ∨ d = .waiting ∨
              (∃ cause, .stall n h cause ∈ s.bus.queue) ∨ .unbind n h .vehicleChange ∈ s.bus.queue ∨
              .zeroGrant n h ∈ s.bus.queue) : s.takenGrant n h d x = 0 := by
  unfold State.takenGrant
  rw [if_neg]
  rintro ⟨a1, a2, a3, a4, a5, a6, a7⟩
  rw [holdsBack_any] at a7
  obtain ⟨a7, a8, a9⟩ := a7
  rcases hc with q | q | q | q | q | q | ⟨c, q⟩ | q | q
  · rw [a1] at q; cases q
  · exact q a2
  · exact q a3
  · rw [a4] at q; cases q
  · exact a5 q
  · subst q; rcases a6 with z | z <;> cases z
  · exact a7 c q
  · exact a8 q
  · exact a9 q

end Sys2Proof.Machine
end

