-- ==== Sys2Proof/Laws/Allocation.lean ====
section
/-! SUPPORT. The allocator: what each pass keeps. -/

namespace Sys2Proof.Machine

/-- The ramp a row's grant is charged. -/
abbrev rampCharge (x : AllocRow × Nat) : Nat := x.2 - x.1.sent.getD 0

/-- A row's request and floor are deliverable. -/
def OkRow (a : AllocRow) : Prop := a.nonCandidate = false → 0 < a.floor ∧ a.floor ≤ a.request ∧ a.request ≤ a.pmaxEff ∧
      (a.heater = .continuous → a.lowest % 100 = 0 ∧ a.request % 100 = 0)

/-- A row after the floor pass: granted its floor, or nothing because no more would fit. -/
def FloorOk (a : AllocRow) (g : Nat) (rest : Remainder) : Prop :=
  (a.nonCandidate = true → g = 0) ∧ (a.nonCandidate = false → (g = 0 ∨ g = a.floor) ∧
    (g = 0 → rest.headroom < a.floor ∨ rest.ramp < a.floor - a.sent.getD 0))

/-- A raise fits what is left. -/
theorem fits_iff {l : Remainder} {g g' s} : l.fits g g' s = true ↔ g' - g ≤ l.headroom ∧ (g' - s) - (g - s) ≤ l.ramp := by
  unfold Remainder.fits rampCost rampUse; simp

/-- The floor grant of one row and what it is charged. -/
theorem floorGrant_spec (a : AllocRow) (l : Remainder) (hok : OkRow a) :
    FloorOk a (a.floorGrant l) (l.pay 0 (a.floorGrant l) a.sentForRamp) ∧
    a.floorGrant l + (l.pay 0 (a.floorGrant l) a.sentForRamp).headroom = l.headroom ∧
    (a.floorGrant l - a.sent.getD 0) + (l.pay 0 (a.floorGrant l) a.sentForRamp).ramp = l.ramp := by
  unfold AllocRow.floorGrant FloorOk Remainder.pay rampCost rampUse AllocRow.sentForRamp
  cases hc : a.nonCandidate
  · have hok := (hok hc).1
    simp only [Bool.false_eq_true, if_false]
    by_cases hf : l.fits 0 a.floor (a.sent.getD 0) = true
    · rw [if_pos hf]
      rw [fits_iff] at hf
      refine ⟨⟨by simp, fun _ => ⟨.inr rfl, ?_⟩⟩, ?_, ?_⟩
      · intro q; omega
      · omega
      · omega
    · rw [if_neg hf]
      rw [fits_iff] at hf
      refine ⟨⟨by simp, fun _ => ⟨.inl rfl, ?_⟩⟩, ?_, ?_⟩
      · intro q; omega
      · omega
      · omega
  · simp

/-- What did not fit does not fit less. -/
theorem FloorOk.mono {a g r r'} (h : FloorOk a g r) (h1 : r'.headroom ≤ r.headroom) (h2 : r'.ramp ≤ r.ramp) : FloorOk a g r' := by
  refine ⟨h.1, fun q => ⟨(h.2 q).1, fun z => ?_⟩⟩
  have := (h.2 q).2 z; omega

/-- The floor pass. -/
theorem floorPass_spec : ∀ (rows : List AllocRow) (l : Remainder), (∀ a ∈ rows, OkRow a) →
    (floorPass rows l).1.map Prod.fst = rows ∧
    ((floorPass rows l).1.map Prod.snd).sum + (floorPass rows l).2.headroom = l.headroom ∧
    ((floorPass rows l).1.map rampCharge).sum + (floorPass rows l).2.ramp = l.ramp ∧
    ∀ x ∈ (floorPass rows l).1, FloorOk x.1 x.2 (floorPass rows l).2 := by
  intro rows
  induction rows with
  | nil => intro l _; simp [floorPass]
  | cons a t ih =>
    intro l hall
    unfold floorPass
    dsimp only
    obtain ⟨p1, p2, p3⟩ := floorGrant_spec a l (hall a List.mem_cons_self)
    generalize hg : a.floorGrant l = g at *
    generalize hl : l.pay 0 g a.sentForRamp = l' at *
    obtain ⟨i1, i2, i3, i4⟩ := ih l' (fun b hb => hall b (List.mem_cons_of_mem _ hb))
    refine ⟨?_, ?_, ?_, ?_⟩
    · simp [i1]
    · simp only [List.map_cons, List.sum_cons]; omega
    · simp only [List.map_cons, List.sum_cons, rampCharge] at *; omega
    · intro x hx
      simp at hx
      rcases hx with rfl | hx
      · exact p1.mono (by omega) (by omega)
      · exact i4 x hx

/-- A row after the fill pass. -/
def FillOk (a : AllocRow) (g : Nat) (rest : Remainder) : Prop :=
      (a.nonCandidate = true → g = 0) ∧
      (a.nonCandidate = false →
        g ≤ a.request ∧ (g = 0 ∨ a.floor ≤ g) ∧
        (a.heater = .continuous → g % 100 = 0) ∧
        (a.heater = .stepped → g = 0 ∨ g = a.half ∨ g = a.pmaxEff) ∧
        (a.heater = .switched → g = 0 ∨ g = a.pmaxEff) ∧
        (g = 0 → rest.headroom < a.floor ∨ rest.ramp < a.floor - a.sent.getD 0) ∧
        (a.heater = .continuous → 0 < g → g < a.request →
          rest.headroom < 100 ∨ rest.ramp < (g + 100 - a.sent.getD 0) - (g - a.sent.getD 0)) ∧
        (a.heater = .stepped → g = a.half → a.half < a.request → a.request = a.pmaxEff →
          rest.headroom < a.pmaxEff - g ∨ rest.ramp < (a.pmaxEff - a.sent.getD 0) - (g - a.sent.getD 0)))

/-- What did not fit does not fit less. -/
theorem FillOk.mono {a g r r'} (h : FillOk a g r) (h1 : r'.headroom ≤ r.headroom) (h2 : r'.ramp ≤ r.ramp) : FillOk a g r' := by
  refine ⟨h.1, fun q => ?_⟩
  obtain ⟨a1, a2, a3, a4, a5, a6, a7, a8⟩ := h.2 q
  refine ⟨a1, a2, a3, a4, a5, ?_, ?_, ?_⟩
  · intro z; have := a6 z; omega
  · intro z1 z2 z3; have := a7 z1 z2 z3; omega
  · intro z1 z2 z3 z4; have := a8 z1 z2 z3 z4; omega

/-- The fill grant of one row and what it is charged. -/
theorem fillGrant_spec {a : AllocRow} {g : Nat} {l : Remainder} (hr : OkRow a) (hf : FloorOk a g l) :
    FillOk a (a.fillGrant g l) (l.pay g (a.fillGrant g l) a.sentForRamp) ∧ g ≤ a.fillGrant g l ∧
    (a.fillGrant g l - g) + (l.pay g (a.fillGrant g l) a.sentForRamp).headroom = l.headroom ∧
    ((a.fillGrant g l - a.sent.getD 0) - (g - a.sent.getD 0)) + (l.pay g (a.fillGrant g l) a.sentForRamp).ramp = l.ramp := by
  unfold AllocRow.fillGrant
  cases hc : a.nonCandidate
  · obtain ⟨r1, r2, r3, r4⟩ := hr hc
    obtain ⟨f1, f2⟩ := hf.2 hc
    by_cases hg : g = 0
    · subst hg
      simp only [or_true, if_true]
      refine ⟨⟨by simp [hc], fun _ => ⟨by omega, .inl rfl, by simp, by simp, by simp, ?_, by simp, ?_⟩⟩, by omega, ?_, ?_⟩
      · intro _; have := f2 rfl; unfold Remainder.pay rampCost rampUse AllocRow.sentForRamp; dsimp only; omega
      · intro z1 z2 z3 z4
        have : a.floor = a.half := by unfold AllocRow.floor; rw [z1]
        omega
      · unfold Remainder.pay; dsimp only; omega
      · unfold Remainder.pay rampCost rampUse; dsimp only; omega
    · have hgf : g = a.floor := by rcases f1 with q | q; exact absurd q hg; exact q
      rw [if_neg (by simp [hg])]
      cases hh : a.heater with
      | continuous =>
        have hlow : a.floor = a.lowest := by unfold AllocRow.floor; rw [hh]
        obtain ⟨r5, r6⟩ := r4 hh
        dsimp only
        unfold AllocRow.sentForRamp
        obtain ⟨m, hm⟩ : ∃ m, m = min a.request (min (g + l.headroom) (max g (a.sent.getD 0) + l.ramp)) := ⟨_, rfl⟩
        rw [← hm]
        unfold floor100
        have hgm : g ≤ m / 100 * 100 := by omega
        rw [Nat.max_eq_right hgm]
        refine ⟨⟨by simp [hc], fun _ => ⟨by omega, by omega, by intro; omega, by simp [hh], by simp [hh], ?_, ?_, by simp [hh]⟩⟩, by omega, ?_, ?_⟩
        · intro _; omega
        · intro _ _ z
          unfold Remainder.pay rampCost rampUse; dsimp only
          have h0 : m / 100 * 100 ≤ m ∧ m < m / 100 * 100 + 100 := by omega
          have h1 : m = a.request ∨ m = g + l.headroom ∨ m = max g (a.sent.getD 0) + l.ramp := by
            rcases min_choice a.request (min (g + l.headroom) (max g (a.sent.getD 0) + l.ramp)) with q | q
            · left; rw [hm, q]
            · rcases min_choice (g + l.headroom) (max g (a.sent.getD 0) + l.ramp) with w | w
              · right; left; rw [hm, q, w]
              · right; right; rw [hm, q, w]
          clear hm
          rcases h1 with q | q | q
          · omega
          · left; omega
          · right
            rcases Nat.le_total g (a.sent.getD 0) with w | w
            · rw [Nat.max_eq_right w] at q; omega
            · rw [Nat.max_eq_left w] at q; omega
        · unfold Remainder.pay; dsimp only; omega
        · unfold Remainder.pay rampCost rampUse; dsimp only; omega
      | stepped =>
        have hhalf : a.floor = a.half := by unfold AllocRow.floor; rw [hh]
        dsimp only
        unfold AllocRow.sentForRamp
        by_cases q : g = a.half ∧ a.request = a.pmaxEff ∧ l.fits g a.pmaxEff (a.sent.getD 0) = true
        · rw [if_pos q]
          obtain ⟨q1, q2, q3⟩ := q
          rw [fits_iff] at q3
          refine ⟨⟨by simp [hc], fun _ => ⟨by omega, by omega, by simp [hh], by simp, by simp [hh], ?_, by simp [hh], ?_⟩⟩, by omega, ?_, ?_⟩
          · intro _; omega
          · intro _ _ _ _; omega
          · unfold Remainder.pay; dsimp only; omega
          · unfold Remainder.pay rampCost rampUse; dsimp only; omega
        · rw [if_neg q]
          rw [fits_iff] at q
          refine ⟨⟨by simp [hc], fun _ => ⟨by omega, by omega, by simp [hh], ?_, by simp [hh], ?_, by simp [hh], ?_⟩⟩, by omega, ?_, ?_⟩
          · intro _; omega
          · intro _; omega
          · intro _ z1 z2 z3; unfold Remainder.pay rampCost rampUse; dsimp only
            have : ¬ (a.pmaxEff - g ≤ l.headroom ∧ a.pmaxEff - a.sent.getD 0 - (g - a.sent.getD 0) ≤ l.ramp) := fun z => q ⟨z1, z3, z⟩
            omega
          · unfold Remainder.pay; dsimp only; omega
          · unfold Remainder.pay rampCost rampUse; dsimp only; omega
      | switched =>
        have hfl : a.floor = a.pmaxEff := by unfold AllocRow.floor; rw [hh]
        dsimp only
        refine ⟨⟨by simp [hc], fun _ => ⟨by omega, by omega, by simp [hh], by simp [hh], ?_, ?_, by simp [hh], by simp [hh]⟩⟩, by omega, ?_, ?_⟩
        · intro _; omega
        · intro _; omega
        · unfold Remainder.pay; dsimp only; omega
        · unfold Remainder.pay rampCost rampUse; dsimp only; omega
  · have := hf.1 hc
    subst this
    simp [FillOk, hc, Remainder.pay, rampCost]

/-- The fill pass. -/
theorem fillPass_spec : ∀ (l : List (AllocRow × Nat)) (r : Remainder), (∀ x ∈ l, OkRow x.1) → (∀ x ∈ l, FloorOk x.1 x.2 r) →
    (fillPass l r).1.map Prod.fst = l.map Prod.fst ∧
    ((fillPass l r).1.map Prod.snd).sum + (fillPass l r).2.headroom = (l.map Prod.snd).sum + r.headroom ∧
    ((fillPass l r).1.map rampCharge).sum + (fillPass l r).2.ramp = (l.map rampCharge).sum + r.ramp ∧
    (fillPass l r).2.headroom ≤ r.headroom ∧ (fillPass l r).2.ramp ≤ r.ramp ∧
    ∀ x ∈ (fillPass l r).1, FillOk x.1 x.2 (fillPass l r).2 := by
  intro l
  induction l with
  | nil => intro r _ _; simp [fillPass]
  | cons x t ih =>
    intro r h1 h2
    obtain ⟨a, g⟩ := x
    obtain ⟨s1, s2, s3, s4⟩ := fillGrant_spec (h1 _ List.mem_cons_self) (h2 _ List.mem_cons_self)
    unfold fillPass
    dsimp only at *
    generalize hg : a.fillGrant g r = g' at *
    generalize hl : r.pay g g' a.sentForRamp = r' at *
    obtain ⟨i1, i2, i3, i5, i6, i4⟩ := ih r' (fun x hx => h1 x (by simp [hx])) (fun x hx => (h2 x (by simp [hx])).mono (by omega) (by omega))
    refine ⟨?_, ?_, ?_, ?_, ?_, ?_⟩
    · simp [i1]
    · simp only [List.map_cons, List.sum_cons]; omega
    · simp only [List.map_cons, List.sum_cons, rampCharge] at *; omega
    · omega
    · omega
    · intro x hx
      simp at hx
      rcases hx with rfl | hx
      · exact s1.mono i5 i6
      · exact i4 x hx

end Sys2Proof.Machine
end

