-- ==== Sys2Proof/Laws/Estimate.lean ====
section
/-! SUPPORT. The thermal estimate: deliverable levels and rounded divisions. -/

namespace Sys2Proof.Machine

/-- The deliverable levels of a heater. -/
theorem deliverable_iff (l : HeaterLimits) (w : Nat) : l.deliverable w = true ↔ w = 0 ∨
      (match l.heater with
      | .continuous => w % 100 = 0 ∧ max l.pminEff 100 ≤ w ∧ w ≤ l.pmaxEff
      | .stepped => w = l.pmaxEff / 2 / 100 * 100 ∨ w = l.pmaxEff
      | .switched => w = l.pmaxEff) := by
  unfold HeaterLimits.deliverable HeaterLimits.lowest HeaterLimits.half floor100
  rcases l with ⟨h, a, b⟩
  cases h <;> simp [and_assoc]

/-- A raw request brought to a deliverable level. -/
theorem request_eq (l : HeaterLimits) (raw : Nat) (hr : 0 < raw) : l.request raw = (match l.heater with
      | .continuous => max (((min (max raw l.pminEff) l.pmaxEff) + 99) / 100 * 100) (max l.pminEff 100)
      | .stepped => if min (max raw l.pminEff) l.pmaxEff ≤ l.pmaxEff / 2 / 100 * 100 then l.pmaxEff / 2 / 100 * 100 else l.pmaxEff
      | .switched => l.pmaxEff) := by
  unfold HeaterLimits.request
  rw [if_neg (by omega)]
  rcases l with ⟨h, a, b⟩
  cases h <;> rfl

/-- A grant brought down to a deliverable level. -/
theorem lower_eq (l : HeaterLimits) (w : Nat) : l.lower w = (match l.heater with
      | .continuous => if min w l.pmaxEff / 100 * 100 < max l.pminEff 100 then 0 else min w l.pmaxEff / 100 * 100
      | .stepped => if l.pmaxEff ≤ w then l.pmaxEff else if l.pmaxEff / 2 / 100 * 100 ≤ w then l.pmaxEff / 2 / 100 * 100 else 0
      | .switched => if l.pmaxEff ≤ w then l.pmaxEff else 0) := by
  unfold HeaterLimits.lower
  rcases l with ⟨h, a, b⟩
  cases h <;> rfl

/-- A division rounded up. -/
theorem ceilDiv_spec (n d : Nat) (h : 0 < d) : n ≤ ceilDiv n d * d ∧ ceilDiv n d * d < n + d := by
  unfold ceilDiv
  have h1 := Nat.div_mul_le_self (n + d - 1) d
  have h2 := Nat.lt_div_mul_add (a := n + d - 1) h
  omega

/-- A negative number counts as 0. -/
theorem toNat_eq_max (x : Int) : ((x.toNat : Nat) : Int) = max 0 x := by omega

end Sys2Proof.Machine
end

