-- ==== Sys2Proof/Laws/PerInstr.lean ====
section
/-! SUPPORT. Laws of every command, one lemma a constructor. -/

namespace Sys2Proof

/-- The numbers a command carries: its fields of one or two bytes, less the signed temperatures. -/
def Instr.numbers : Instr → List Nat
  | .place _ f => [f.vehicle, f.departure, f.cls, f.tier, f.earliest, f.hold]
  | .amend _ f =>
    [f.handle.slot, f.handle.gen, f.vehicle, f.departure, f.cls, f.tier, f.earliest, f.hold]
  | .withdraw _ h => [h.slot, h.gen]
  | .release _ h => [h.slot, h.gen]
  | .lookup _ h => [h.slot, h.gen]
  | .find _ v => [v]
  | .walkStart _ form => [form]
  | .setSite _ f =>
    [f.siteLimit, f.limitedLevel, f.ceiling, f.autoCeiling, f.rampLimit, f.meterConstant, f.meterEdge, f.restoreDelay,
     f.roundPeriod, f.startLead, f.grace, f.departWindow, f.horizon]
  | .setLink _ p t => [p, t]
  | .setPost _ f => [f.post, f.service, f.interface_, f.feedLimit, f.pollMode]
  | .readPost _ p => [p]
  | .setClass _ f => [f.cls, f.c, f.g, f.pmax, f.pmin, f.h, f.m]
  | .clearClass _ c => [c]
  | .readClass _ c => [c]
  | .setTime _ m sec => [m, sec]
  | .setMode _ m => [m]
  | .readAttention _ src => src.toList
  | .clearAttention _ src _ => [src]
  | .powerOn | .restart | .secondBoundary | .frameReceived _ | .frameGapTimeout | .frameTaken | .walkNext _
  | .readSite _ | .readTime _ | .replan _ | .setMasks _ _ _ | .supervisionExpiry | .createAccess
  | .amendAccess | .withdrawAccess | .freeAccess | .readAccess | .indexRead | .bindAccess | .unbindAccess
  | .stallEntry | .stallCauseReplacement | .recovery | .addEnergy | .zeroGrantOnShed | .roundTimerExpiry
  | .snapshotRead | .sweepRead | .roundCompute | .writeBack | .exchangeStart | .postReply _ | .replyTimeout
  | .plugSenseChange _ _ | .plugFilterExpiry _ | .siteLineChange _ _ | .siteLineFilterExpiry _
  | .restoreTimerExpiry | .meterPulse _ => []

namespace Laws.Widths

set_option Elab.async false

/-- Every number a well-formed command carries fits the two bytes of the widest field (R178, R180). -/
def Statement (i : Instr) : Prop := i.wf = true → ∀ n ∈ i.numbers, n < 65536

theorem powerOn : Statement (.powerOn) := by simp [Statement, Instr.numbers]
theorem restart : Statement (.restart) := by simp [Statement, Instr.numbers]
theorem secondBoundary : Statement (.secondBoundary) := by simp [Statement, Instr.numbers]
theorem frameReceived (bytes : List Byte) : Statement (.frameReceived bytes) := by simp [Statement, Instr.numbers]
theorem frameGapTimeout : Statement (.frameGapTimeout) := by simp [Statement, Instr.numbers]
theorem frameTaken : Statement (.frameTaken) := by simp [Statement, Instr.numbers]
theorem place (tag : Byte) (f : PlaceFields) : Statement (.place tag f) := by
  intro h
  simp only [Instr.wf, PlaceFields.fits, fits8, fits16, fitsS16, Bool.and_eq_true, decide_eq_true_eq] at h
  simp only [Instr.numbers, List.forall_mem_cons, List.not_mem_nil, false_imp_iff, implies_true, and_true]
  omega
theorem amend (tag : Byte) (f : AmendFields) : Statement (.amend tag f) := by
  intro h
  simp only [Instr.wf, AmendFields.fits, RawHandle.fits, fits8, fits16, fitsS16, Bool.and_eq_true, decide_eq_true_eq] at h
  simp only [Instr.numbers, List.forall_mem_cons, List.not_mem_nil, false_imp_iff, implies_true, and_true]
  omega
theorem withdraw (tag : Byte) (h : RawHandle) : Statement (.withdraw tag h) := by
  intro h
  simp [Instr.wf, RawHandle.fits, fits8] at h
  simp [Instr.numbers]
  omega
theorem release (tag : Byte) (h : RawHandle) : Statement (.release tag h) := by
  intro h
  simp [Instr.wf, RawHandle.fits, fits8] at h
  simp [Instr.numbers]
  omega
theorem lookup (tag : Byte) (h : RawHandle) : Statement (.lookup tag h) := by
  intro h
  simp [Instr.wf, RawHandle.fits, fits8] at h
  simp [Instr.numbers]
  omega
theorem find (tag : Byte) (vehicle : Nat) : Statement (.find tag vehicle) := by
  intro h
  simp [Instr.wf, fits16] at h
  simp [Instr.numbers]
  omega
theorem walkStart (tag : Byte) (form : Nat) : Statement (.walkStart tag form) := by
  intro h
  simp [Instr.wf, fits8] at h
  simp [Instr.numbers]
  omega
theorem walkNext (tag : Byte) : Statement (.walkNext tag) := by simp [Statement, Instr.numbers]
theorem setSite (tag : Byte) (f : SiteFields) : Statement (.setSite tag f) := by
  intro h
  simp only [Instr.wf, SiteFields.fits, fits8, fits16, fitsS16, Bool.and_eq_true, decide_eq_true_eq] at h
  simp only [Instr.numbers, List.forall_mem_cons, List.not_mem_nil, false_imp_iff, implies_true, and_true]
  omega
theorem readSite (tag : Byte) : Statement (.readSite tag) := by simp [Statement, Instr.numbers]
theorem setLink (tag : Byte) (posting time : Nat) : Statement (.setLink tag posting time) := by
  intro h
  simp [Instr.wf, fits8, fits16] at h
  simp [Instr.numbers]
  omega
theorem setPost (tag : Byte) (f : SetPostFields) : Statement (.setPost tag f) := by
  intro h
  simp only [Instr.wf, SetPostFields.fits, fits8, fits16, Bool.and_eq_true, decide_eq_true_eq] at h
  simp only [Instr.numbers, List.forall_mem_cons, List.not_mem_nil, false_imp_iff, implies_true, and_true]
  omega
theorem readPost (tag : Byte) (post : Nat) : Statement (.readPost tag post) := by
  intro h
  simp [Instr.wf, fits8] at h
  simp [Instr.numbers]
  omega
theorem setClass (tag : Byte) (f : SetClassFields) : Statement (.setClass tag f) := by
  intro h
  simp only [Instr.wf, SetClassFields.fits, fits8, fits16, Bool.and_eq_true, decide_eq_true_eq] at h
  simp only [Instr.numbers, List.forall_mem_cons, List.not_mem_nil, false_imp_iff, implies_true, and_true]
  omega
theorem clearClass (tag : Byte) (cls : Nat) : Statement (.clearClass tag cls) := by
  intro h
  simp [Instr.wf, fits8] at h
  simp [Instr.numbers]
  omega
theorem readClass (tag : Byte) (cls : Nat) : Statement (.readClass tag cls) := by
  intro h
  simp [Instr.wf, fits8] at h
  simp [Instr.numbers]
  omega
theorem setTime (tag : Byte) (minute second : Nat) : Statement (.setTime tag minute second) := by
  intro h
  simp [Instr.wf, fits8, fits16] at h
  simp [Instr.numbers]
  omega
theorem readTime (tag : Byte) : Statement (.readTime tag) := by simp [Statement, Instr.numbers]
theorem setMode (tag : Byte) (mode : Nat) : Statement (.setMode tag mode) := by
  intro h
  simp [Instr.wf, fits8] at h
  simp [Instr.numbers]
  omega
theorem replan (tag : Byte) : Statement (.replan tag) := by simp [Statement, Instr.numbers]
theorem readAttention (tag : Byte) (source : Option Nat) : Statement (.readAttention tag source) := by
  intro h n hn
  simp only [Instr.numbers, Option.mem_toList] at hn
  subst hn
  simp only [Instr.wf, Option.all_some, fits8, decide_eq_true_eq] at h
  omega
theorem clearAttention (tag : Byte) (source : Nat) (flags : Byte) : Statement (.clearAttention tag source flags) := by
  intro h
  simp [Instr.wf, fits8] at h
  simp [Instr.numbers]
  omega
theorem setMasks (tag : Byte) (masks : BitVec 32) (groups : Byte) : Statement (.setMasks tag masks groups) := by simp [Statement, Instr.numbers]
theorem supervisionExpiry : Statement (.supervisionExpiry) := by simp [Statement, Instr.numbers]
theorem createAccess : Statement (.createAccess) := by simp [Statement, Instr.numbers]
theorem amendAccess : Statement (.amendAccess) := by simp [Statement, Instr.numbers]
theorem withdrawAccess : Statement (.withdrawAccess) := by simp [Statement, Instr.numbers]
theorem freeAccess : Statement (.freeAccess) := by simp [Statement, Instr.numbers]
theorem readAccess : Statement (.readAccess) := by simp [Statement, Instr.numbers]
theorem indexRead : Statement (.indexRead) := by simp [Statement, Instr.numbers]
theorem bindAccess : Statement (.bindAccess) := by simp [Statement, Instr.numbers]
theorem unbindAccess : Statement (.unbindAccess) := by simp [Statement, Instr.numbers]
theorem stallEntry : Statement (.stallEntry) := by simp [Statement, Instr.numbers]
theorem stallCauseReplacement : Statement (.stallCauseReplacement) := by simp [Statement, Instr.numbers]
theorem recovery : Statement (.recovery) := by simp [Statement, Instr.numbers]
theorem addEnergy : Statement (.addEnergy) := by simp [Statement, Instr.numbers]
theorem zeroGrantOnShed : Statement (.zeroGrantOnShed) := by simp [Statement, Instr.numbers]
theorem roundTimerExpiry : Statement (.roundTimerExpiry) := by simp [Statement, Instr.numbers]
theorem snapshotRead : Statement (.snapshotRead) := by simp [Statement, Instr.numbers]
theorem sweepRead : Statement (.sweepRead) := by simp [Statement, Instr.numbers]
theorem roundCompute : Statement (.roundCompute) := by simp [Statement, Instr.numbers]
theorem writeBack : Statement (.writeBack) := by simp [Statement, Instr.numbers]
theorem exchangeStart : Statement (.exchangeStart) := by simp [Statement, Instr.numbers]
theorem postReply (bytes : List Byte) : Statement (.postReply bytes) := by simp [Statement, Instr.numbers]
theorem replyTimeout : Statement (.replyTimeout) := by simp [Statement, Instr.numbers]
theorem plugSenseChange (post : Fin 24) (level : Level) : Statement (.plugSenseChange post level) := by simp [Statement, Instr.numbers]
theorem plugFilterExpiry (post : Fin 24) : Statement (.plugFilterExpiry post) := by simp [Statement, Instr.numbers]
theorem siteLineChange (line : SiteLine) (level : Level) : Statement (.siteLineChange line level) := by simp [Statement, Instr.numbers]
theorem siteLineFilterExpiry (line : SiteLine) : Statement (.siteLineFilterExpiry line) := by simp [Statement, Instr.numbers]
theorem restoreTimerExpiry : Statement (.restoreTimerExpiry) := by simp [Statement, Instr.numbers]
theorem meterPulse (edge : Edge) : Statement (.meterPulse edge) := by simp [Statement, Instr.numbers]

end Laws.Widths

end Sys2Proof
end

