-- ==== Sys2Proof/Tests/Slice0.lean ====
section
/-! SUPPORT. The author's own tests: an ill-formed term for each check of WellFormed, the worked cases of the spec, one
step of the commands, and for each statement with hypotheses a state and operands that meet them, clause by clause. -/

namespace Sys2Proof.Tests

open Sys2Proof Sys2Proof.Machine

/-! ### Well-formedness -/

/-- The fields of the PLACE of 01 section 2.9. -/
def placeLife : PlaceFields :=
  { presence := 0, vehicle := 4117, departure := 1740, target := 210, cls := 3, tier := 1, earliest := 0, hold := 0 }

/-- An AMEND of order 12/3 that names what the mask says. -/
def amendLife (mask : BitVec 16) : AmendFields :=
  { handle := ⟨12, 3⟩, mask := mask, vehicle := 4117, departure := 1800, target := 200, cls := 3, tier := 0
    earliest := 1700, hold := 30 }

/-- SET SITE at the defaults of R173. -/
def siteDefaults : SiteFields :=
  { siteLimit := 200, limitedLevel := 100, ceiling := 120, autoCeiling := 40, rampLimit := 30, meterConstant := 10
    meterEdge := 0, restoreDelay := 180, roundPeriod := 30, startLead := 15, grace := 20, departWindow := 30
    horizon := 720, fallback := -200 }

/-- SET POST of post 9 that names what the mask says. -/
def postNine (mask : Byte) : SetPostFields :=
  { post := 9, mask := mask, service := 1, interface_ := 1, feedLimit := 6050, pollMode := 1 }

/-- SET CLASS of class 3 with the parameters of the worked life. -/
def classThree : SetClassFields := { cls := 3, c := 180, g := 45, pmax := 5000, pmin := 1000, h := 20, m := 5 }

theorem test_wf_accepts :
    (Instr.place 0 placeLife).wf ∧ (Instr.amend 0 (amendLife 0x1FF)).wf ∧ (Instr.setSite 0 siteDefaults).wf ∧
      (Instr.setPost 0 (postNine 0x0F)).wf ∧ (Instr.setClass 0 classThree).wf ∧ (Instr.lookup 0 ⟨255, 255⟩).wf ∧
      (Instr.walkStart 0 3).wf ∧ (Instr.setTime 0 65535 255).wf := by decide

theorem test_wf_refuses_place :
    [{ placeLife with vehicle := 65536 }, { placeLife with departure := 65536 }, { placeLife with target := 32768 },
      { placeLife with target := -32769 }, { placeLife with cls := 256 }, { placeLife with tier := 256 },
      { placeLife with earliest := 65536 }, { placeLife with hold := 256 }].all
      (fun f => !(Instr.place 0 f).wf) = true := by decide

theorem test_wf_refuses_amend :
    [{ amendLife 0 with handle := ⟨256, 0⟩ }, { amendLife 0 with handle := ⟨0, 256⟩ },
      { amendLife 0 with vehicle := 65536 }, { amendLife 0 with departure := 65536 },
      { amendLife 0 with target := 32768 }, { amendLife 0 with cls := 256 }, { amendLife 0 with tier := 256 },
      { amendLife 0 with earliest := 65536 }, { amendLife 0 with hold := 256 }].all
      (fun f => !(Instr.amend 0 f).wf) = true := by decide

theorem test_wf_refuses_handles :
    [Instr.withdraw 0 ⟨256, 0⟩, .release 0 ⟨0, 256⟩, .lookup 0 ⟨256, 0⟩, .find 0 65536, .walkStart 0 2,
      .walkStart 0 256].all (fun c => !c.wf) = true := by decide

theorem test_wf_refuses_site :
    [{ siteDefaults with siteLimit := 65536 }, { siteDefaults with limitedLevel := 65536 },
      { siteDefaults with ceiling := 65536 }, { siteDefaults with autoCeiling := 65536 },
      { siteDefaults with rampLimit := 65536 }, { siteDefaults with meterConstant := 256 },
      { siteDefaults with meterEdge := 256 }, { siteDefaults with restoreDelay := 65536 },
      { siteDefaults with roundPeriod := 256 }, { siteDefaults with startLead := 256 },
      { siteDefaults with grace := 256 }, { siteDefaults with departWindow := 256 },
      { siteDefaults with horizon := 65536 }, { siteDefaults with fallback := -32769 }].all
      (fun f => !(Instr.setSite 0 f).wf) = true := by decide

theorem test_wf_refuses_post_and_class :
    [{ postNine 0 with post := 256 }, { postNine 0 with service := 256 }, { postNine 0 with interface_ := 256 },
      { postNine 0 with feedLimit := 65536 }, { postNine 0 with pollMode := 256 }].all
      (fun f => !(Instr.setPost 0 f).wf) = true ∧
    [{ classThree with cls := 256 }, { classThree with c := 256 }, { classThree with g := 256 },
      { classThree with pmax := 65536 }, { classThree with pmin := 65536 }, { classThree with h := 256 },
      { classThree with m := 256 }].all (fun f => !(Instr.setClass 0 f).wf) = true := by decide

theorem test_wf_refuses_plain :
    [Instr.setLink 0 256 0, .setLink 0 0 65536, .readPost 0 256, .clearClass 0 256, .readClass 0 256, .setTime 0 65536 0,
      .setTime 0 0 256, .setMode 0 256, .readAttention 0 (some 256), .clearAttention 0 256 0].all
      (fun c => !c.wf) = true := by decide

/-! ### The worked cases of the spec -/

/-- 03 section 4.3, the six worked cases. -/
theorem test_ahead_readings :
    aheadMinutes 10070 20 = 30 ∧ aheadMinutes 10070 10060 = -10 ∧ aheadMinutes 5 10070 = -15 ∧
      aheadMinutes 0 8640 = 8640 ∧ aheadMinutes 0 8641 = -1439 ∧ aheadMinutes 1740 1740 = 0 := by decide

/-- The class of 06 section 7.5. -/
def params3 : ClassParams := { c := 180, g := 45, pmax := 5000, pmin := 1000, h := 20, m := 5 }

/-- The row of 06 section 7.5, with its interface, cabin reading and state as the case says. -/
def rowLife (heater : Heater) (cabin : Int) (x : OrderState) : Row :=
  { post := 9, handle := ⟨12, 3⟩, state := x, vehicle := 4117, departure := 1740, target := 210, cls := 3
    tier := .regular, earliest := none, hold := none, reached := none, params := params3, inService := true
    heater := heater, feedLimit := 7000, silent := false
    report := { vehicle := 4117, cabin := some cabin, outside := some (-250) }, age := 0, sent := some 0 }

/-- 06 section 7.5: the stored estimate. -/
theorem test_estimate_life :
    (rowLife .continuous (-180) .heating).estimate 1694 15 (-200) =
      { liftEnergy := 7020, lossPower := 2070, timeToTarget := 1680, latestStart := 1707, slack := 13, request := 4000
        unreachable := false } := by decide +kernel

/-- 06 section 7.5: the onset of eligibility, and a FIRST-OUT order ten minutes sooner. -/
theorem test_estimate_onset :
    (rowLife .continuous (-180) .waiting).eligible 1691 15 (-200) = false ∧
      (rowLife .continuous (-180) .waiting).eligible 1692 15 (-200) = true ∧
      { rowLife .continuous (-180) .waiting with tier := .firstOut }.eligible 1681 15 (-200) = false ∧
      { rowLife .continuous (-180) .waiting with tier := .firstOut }.eligible 1682 15 (-200) = true := by decide

/-- 06 section 7.5: the same cabin on other posts, and the request of 01 section 2.9 at 04:12. -/
theorem test_estimate_interfaces :
    ((rowLife .stepped (-180) .heating).estimate 1694 15 (-200)).request = 5000 ∧
      ((rowLife .switched (-180) .heating).estimate 1694 15 (-200)).request = 5000 ∧
      ((rowLife .continuous (-180) .waiting).estimate 1692 15 (-200)).request = 3900 := by decide

/-- 06 section 7.5: hold power, the latest start at target, and the way out of the holding case. -/
theorem test_estimate_holding :
    ((rowLife .continuous 210 .heating).estimate 1694 15 (-200)).request = 1700 ∧
      ((rowLife .stepped 210 .heating).estimate 1694 15 (-200)).request = 2500 ∧
      ((rowLife .continuous 210 .heating).estimate 1694 15 (-200)).latestStart = 1735 ∧
      ((rowLife .continuous 202 .holding).estimate 1694 15 (-200)).request = 1700 ∧
      (rowLife .continuous 199 .holding).holding = false ∧
      (rowLife .continuous 199 .holding).liftEnergy (-200) = 198 := by decide

/-- The row of 06 section 7.6 that its heater cannot outrun. -/
def rowCold : Row :=
  { rowLife .continuous (-300) .waiting with
    departure := 2294, target := 220, cls := 7
    params := { c := 120, g := 120, pmax := 1500, pmin := 0, h := 16, m := 10 }
    report := { vehicle := 4117, cabin := some (-300), outside := some (-350) } }

/-- 06 section 7.6: a cabin the heater cannot outrun. -/
theorem test_estimate_unreachable :
    rowCold.estimate 1694 15 (-200) =
      { liftEnergy := 6240, lossPower := 6840, timeToTarget := 65535, latestStart := 1191, slack := -503
        request := 1500, unreachable := true } ∧
      rowCold.eligible 1694 15 (-200) = true := by decide

/-- 06 section 7.6: no usable readings, and a stale one. -/
theorem test_estimate_without_readings :
    let r := { rowLife .continuous 0 .waiting with report := Report.none }
    r.liftEnergy (-200) = 7380 ∧ r.lossPower (-200) = 1845 ∧ r.timeToTarget (-200) = 1676 ∧ r.lead (-200) = 33 ∧
      ({ rowLife .continuous 80 .stalled with age := 3 } : Row).cabinUsed (-200) = -250 := by decide

/-- A candidate of 08 section 9.5. -/
def candidate (heater : Heater) (lowest half pmaxEff request sent : Nat) : AllocRow :=
  { request := request, heater := heater, lowest := lowest, half := half, pmaxEff := pmaxEff, sent := some sent
    eligible := true, holding := false, nonCandidate := false }

/-- The candidates of 08 section 9.5 in rank order; the effective maxima of A, E and C, which the case leaves open, are
6000 W. -/
def candidates : List AllocRow :=
  [candidate .continuous 1000 3000 6000 4000 4000, candidate .stepped 3000 3000 6000 6000 0,
    candidate .switched 3000 1500 3000 3000 0, candidate .continuous 1500 3000 6000 5200 0,
    candidate .continuous 1000 3000 6000 1700 1700]

/-- 08 section 9.5: the round under scarcity. -/
theorem test_allocation_scarce :
    ((allocate 16000 30000 candidates).1.map Prod.snd, (allocate 16000 30000 candidates).2) =
      ([4000, 6000, 3000, 2000, 1000], { headroom := 0, ramp := 19000 }) := by decide

/-- 08 section 9.6: the same round under a tight ramp. -/
theorem test_allocation_tight_ramp :
    ((allocate 16000 5000 candidates).1.map Prod.snd, (allocate 16000 5000 candidates).2) =
      ([4000, 3000, 0, 2000, 1700], { headroom := 5300, ramp := 0 }) := by decide

/-- 09 section 10.4: the measured power and the seven worked headrooms. -/
theorem test_headroom_cases :
    measuredPower 83 10 30 = 99600 ∧
      headroom .normal false false SiteSettings.init 99600 24300 = 120000 ∧
      headroom .limited false false SiteSettings.init 99600 24300 = 24700 ∧
      headroom .restoring false false SiteSettings.init 99600 24300 = 24700 ∧
      headroom .limited false false { SiteSettings.init with limitedLevel := 60 } 99600 24300 = 0 ∧
      headroom .normal true false SiteSettings.init 99600 24300 = 40000 ∧
      headroom .shed false false SiteSettings.init 99600 24300 = 0 ∧
      headroom .normal false true SiteSettings.init 99600 24300 = 24300 := by decide

/-- R179: the check of the nine bytes "123456789", the published check value of this polynomial and initial value. -/
theorem test_crc8_check_value : crc8 [0x31, 0x32, 0x33, 0x34, 0x35, 0x36, 0x37, 0x38, 0x39] = 0xDA := by decide +kernel

/-- R180: payloads by the layout, and the refusal of an unknown code or a wrong length. -/
theorem test_requests_parse :
    parseRequest 0x01 [0x00, 0x10, 0x15, 0x06, 0xCC, 0x00, 0xD2, 3, 1, 0, 0, 0] = some (.place placeLife) ∧
      parseRequest 0x10 [0x06, 0xCC, 59] = some (.setTime 1740 59) ∧
      parseRequest 0x16 [1, 0, 0, 0x80, 0x0F] = some (.setMasks 0x80000001 0x0F) ∧
      parseRequest 0x14 [] = some (.readAttention none) ∧
      parseRequest 0x00 [] = none ∧ parseRequest 0x17 [] = none ∧ parseRequest 0x11 [0] = none := by decide

/-! ### One step of a command -/

/-- The state a command leaves. -/
def after (c : Instr) (s : State) : State :=
  match exec c s with
  | .next t => t
  | _ => s

/-- The statuses of the replies a command leaves sent. -/
def statuses (c : Instr) (s : State) : List Status := (after c s).link.sent.map Reply.status

/-- The part with its clock set to a minute and class 3 defined. -/
def clocked (minute : Nat) : State :=
  { State.reset with
    clock := { prescaler := 0, second := 0, minute := minute, isSet := true }
    classes := State.reset.classes.set 3 { params := some params3, users := [] } }

/-- Order 12/3 of 01 section 2.9, bound at post 9 unless it is PENDING or CLOSED. -/
def orderLife (x : OrderState) : Order :=
  { handle := ⟨12, 3⟩, vehicle := 4117, departure := 1740, target := 210, cls := 3, tier := .regular, state := x
    earliest := none, hold := none, boundPost := if x = .pending ∨ x = .closed then none else some 9, stall := none
    outcome := none, estimate := none, grant := 0, short := false, behind := false, reached := none, energy := 6120 }

/-- The part at a minute with order 12/3 stored, and at post 9 its vehicle: a BOUND post when the order is bound, else
an OCCUPIED one. -/
def life (x : OrderState) (minute : Nat) : State :=
  { clocked minute with
    classes := State.reset.classes.set 3 { params := some params3, users := if x = .closed then [] else [12] }
    store :=
      { slots := State.reset.store.slots.set 12
          { dir := { generation := 3, occupancy := if x = .closed then .closed else .live, damaged := false
                     state := some x, vehicle := some 4117, boundPost := (orderLife x).boundPost }
            record := some { order := orderLife x, codeError := 0 } }
        index := if x = .closed then [] else [{ vehicle := 4117, entries := [{ handle := ⟨12, 3⟩, departure := 1740 }] }]
        table := State.reset.store.table.set 9 (if (orderLife x).boundPost = none then none else some ⟨12, 3⟩) }
    bus := { Bus.init with
      posts := Bus.init.posts.set 9
        { Post.init with
          inService := true, state := if (orderLife x).boundPost = none then .occupied else .bound, sent := some 0
          current := { vehicle := 4117, cabin := some (-180), outside := some (-250) } } } }

/-- The record of order 12/3 changed; the directory's copies are as in `life`. -/
def life.order (x : OrderState) (minute : Nat) (f : Order → Order) : State :=
  { life x minute with
    store := { (life x minute).store with
      slots := (life x minute).store.slots.set 12
        { dir := (life x minute).store.dir 12, record := some { order := f (orderLife x), codeError := 0 } } } }

/-- Post 9 changed. -/
def atNine (s : State) (f : Post → Post) : State := { s with bus := s.bus.modify 9 f }

/-- An access in flight. -/
def inFlight (s : State) (a : Access) : State := { s with arbiter := { s.arbiter with inFlight := some a } }

/-- A request in progress whose access is in flight. -/
def serving (s : State) (r : Request) (a : LinkAccess) : State :=
  { inFlight s (.link a) with
    link := { s.link with inProgress := some { request := r, tag := 7, stage := .access a } } }

/-- A record damaged in the store: its check code no longer holds. -/
def corrupt (s : State) : State :=
  { s with store := { s.store with
      slots := s.store.slots.set 12
        { dir := s.store.dir 12, record := some { order := orderLife .pending, codeError := 1 } } } }

/-- R45: Sunday 23:59:59 becomes Monday 00:00:00. -/
theorem test_second_boundary_wraps_week :
    (after .secondBoundary { clocked 10079 with
      clock := { prescaler := 0, second := 59, minute := 10079, isSet := true } }).clock =
      { prescaler := 0, second := 0, minute := 0, isSet := true } := by decide

/-- R58, R44: a restart keeps the clock, frees the slot and advances its generation; the power-on forgets both. -/
theorem test_resets :
    (after .restart (life .heating 1710)).clock.minute = 1710 ∧
      (after .restart (life .heating 1710)).store.dir 12 = DirEntry.freeAt 4 ∧
      (after .powerOn (life .heating 1710)).clock.isSet = false ∧
      (after .powerOn (life .heating 1710)).store.dir 12 = DirEntry.freeAt 0 := by decide

/-- R164 to R167: READ TIME as a frame goes into the buffer, and is answered when the frame is taken. -/
theorem test_frame_received_and_taken :
    let s := after (.frameReceived ([0xA5, 0x00, 0x11, 0x2A] ++ [crc8 [0x00, 0x11, 0x2A]])) State.reset
    s.link.buffer = some { code := 0x11, tag := 0x2A, payload := [], good := true } ∧
      (after .frameTaken s).link.sent =
        [{ code := 0x11, tag := 0x2A, status := .done, clamped := false, payload := [0, 0, 0, 0] }] ∧
      (after .frameTaken s).link.inProgress = none ∧ (after .frameTaken s).link.buffer = none := by decide +kernel

/-- R164: a byte before the start byte and a length of 61 are discarded, and what follows is hunted through. -/
theorem test_frame_discards :
    (after (.frameReceived [0x11, 0xA5, 61, 0x11, 0x2A]) State.reset).link.receiver = .hunting ∧
      (after (.frameReceived [0x11, 0xA5, 60, 0x11, 0x2A]) State.reset).link.receiver = .body 60 [0x11, 0x2A] := by
  decide +kernel

/-- R164: a wrong check answers CHECK ERROR when the frame is taken. -/
theorem test_frame_check_error :
    statuses .frameTaken (after (.frameReceived ([0xA5, 0x00, 0x11, 0x2A] ++ [crc8 [0x00, 0x11, 0x2A] ^^^ 1])) State.reset) =
      [.checkError] := by decide +kernel

/-- R8: the refusals of PLACE at the port in their order, and its way to the create access. -/
theorem test_place_port :
    statuses (.place 7 { placeLife with vehicle := 0 }) State.reset = [.noClock] ∧
      statuses (.place 7 { placeLife with vehicle := 0, departure := 1319 }) (clocked 1320) = [.badField] ∧
      statuses (.place 7 { placeLife with departure := 1319, cls := 4 }) (clocked 1320) = [.past] ∧
      statuses (.place 7 { placeLife with cls := 4 }) (clocked 1320) = [.noClass] ∧
      (after (.place 7 placeLife) (clocked 1320)).arbiter =
        { pointer := .link, inFlight := some (.link (.create placeLife)) } := by decide

/-- 01 section 2.9: the placed record. -/
theorem test_create_access :
    (after .createAccess (serving (clocked 1320) (.place placeLife) (.create placeLife))).store.readOrder 0 =
      some { orderLife .pending with handle := ⟨0, 0⟩, energy := 0 } := by decide

/-- R9: a target and a hold extension out of range are clamped, and an earliest start beyond the departure is brought
back to it. -/
theorem test_create_clamps :
    let f := { placeLife with presence := 3, target := 50, earliest := 1741, hold := 61 }
    ((after .createAccess (serving (clocked 1320) (.place f) (.create f))).store.readOrder 0).map
      (fun o => (o.target, o.earliest, o.hold)) = some (100, some 1740, some 60) := by decide

/-- R8: a second order of the vehicle for the same departure is a DUPLICATE. -/
theorem test_create_duplicate :
    statuses .createAccess (serving (life .pending 1320) (.place placeLife) (.create placeLife)) = [.duplicate] := by
  decide

/-- R29, R12: the refusals of AMEND against the directory. -/
theorem test_amend_port :
    statuses (.amend 7 { amendLife 1 with handle := ⟨12, 4⟩ }) (life .pending 1320) = [.unknownHandle] ∧
      statuses (.amend 7 { amendLife 1 with handle := ⟨64, 3⟩ }) (life .pending 1320) = [.unknownHandle] ∧
      statuses (.amend 7 (amendLife 1)) (life .closed 1320) = [.closed] ∧
      statuses (.amend 7 (amendLife 4)) (life .heating 1320) = [.locked] ∧
      statuses (.amend 7 (amendLife 4)) (life .waiting 1320) = [.posted] := by decide

/-- R13: an AMEND of departure and target clears the reached minute and sets replan pending. -/
theorem test_amend_access :
    let s := after .amendAccess (serving (life.order .holding 1700 (fun o => { o with reached := some 1690 }))
      (.change (.amend (amendLife 3))) (.amend (amendLife 3)))
    (s.store.readOrder 12).map (fun o => (o.departure, o.target, o.reached, o.state)) =
      some (1800, 200, none, .holding) ∧
      s.planner.round.isSome = true ∧ s.store.vehicleEntries 4117 = [{ handle := ⟨12, 3⟩, departure := 1800 }] := by
  decide

/-- R14, R17, R35: a withdrawal closes the order, clears the table and leaves the post OCCUPIED. -/
theorem test_withdraw_access :
    let s := after .withdrawAccess (serving (life .heating 1700) (.change (.withdraw ⟨12, 3⟩)) (.withdraw ⟨12, 3⟩))
    (s.store.readOrder 12).map (fun o => (o.state, o.outcome, o.boundPost)) =
      some (.closed, some (.withdrawn, 1700), none) ∧
      s.store.table[9] = none ∧ s.bus.posts[9].state = .occupied ∧ (s.classes[3] : ClassEntry).users = [] := by decide

/-- R167, R168: a RELEASE that waits for the posted WITHDRAW of its slot is carried out once that has drained, and sees the
order closed. -/
theorem test_waiting_request_carried_out :
    let s := after .withdrawAccess { inFlight (life .heating 1700) (.link (.withdraw ⟨12, 3⟩)) with
      link := { Link.init with
        posting := [.withdraw ⟨12, 3⟩]
        inProgress := some { request := .change (.release ⟨12, 3⟩), tag := 7, stage := .taken } } }
    s.link.posting = [] ∧ s.link.sent = [] ∧
      s.link.inProgress = some { request := .change (.release ⟨12, 3⟩), tag := 7, stage := .access (.free ⟨12, 3⟩) } := by
  decide

/-- R26: the free access leaves the slot FREE with the generation advanced, from 255 to 0. -/
theorem test_free_access :
    (after .freeAccess (serving (life .closed 1700) (.change (.release ⟨12, 3⟩)) (.free ⟨12, 3⟩))).store.slots[12] =
      { dir := DirEntry.freeAt 4, record := none } := by decide

/-- R181: the image of a damaged record. -/
theorem test_read_damaged :
    (after .readAccess (serving (corrupt (life .pending 1700)) (.lookup ⟨12, 3⟩) (.read ⟨12, 3⟩ .done))).link.sent.map
      Reply.payload =
      [[12, 3, 0, 0x10, 0x15, 0, 0, 0, 0, 0, 0, 5, 0, 0, 0, 0, 0, 0, 0, 0, 0, 0, 0, 0, 0, 0, 0, 0, 0, 0, 0, 0, 0, 8, 0, 0,
        5, 0, 0]] := by decide

/-- 12 section 13.3: the image of the HEATING order of 01 section 2.9, bound at post 9 with 6120 kJ. -/
theorem test_read_record :
    (after .readAccess (serving (life .heating 1700) (.lookup ⟨12, 3⟩) (.read ⟨12, 3⟩ .done))).link.sent.map
      Reply.payload =
      [[12, 3, 4, 0x10, 0x15, 0x06, 0xCC, 0, 0xD2, 3, 1, 2, 0, 0, 0, 9, 0, 0, 0, 0, 0, 0, 0, 0, 0, 0, 0, 0, 0, 0, 0, 0, 0, 0,
        0x17, 0xE8, 0, 0, 0]] := by decide

/-- R33: FIND's image of one order. -/
theorem test_index_read :
    (after .indexRead (serving (life .pending 1700) (.find 4117) (.index 4117))).link.sent.map Reply.payload =
      [[0x10, 0x15, 1, 12, 3, 0xFF, 0xFF, 0xFF, 0xFF, 0xFF, 0xFF]] := by decide

/-- R171: a SLOT walk finds the one order, and its next ends. -/
theorem test_walk_slot :
    (after (.walkStart 7 0) (life .pending 1700)).link.walk = .slot 12 ∧
      statuses (.walkNext 7) { life .pending 1700 with link := { Link.init with walk := .slot 12 } } = [.endOfWalk] ∧
      statuses (.walkNext 7) (life .pending 1700) = [.badRequest] := by decide

/-- R173, R149: SET SITE clamps; a restore delay at or below the running count ends RESTORING. -/
theorem test_set_site :
    (after (.setSite 7 { siteDefaults with siteLimit := 5, horizon := 9000, fallback := 700 }) State.reset).site =
      { SiteSettings.init with siteLimit := 10, horizon := 8640, fallback := 600 } ∧
      (after (.setSite 7 { siteDefaults with restoreDelay := 90 })
        { State.reset with supply := { Supply.init with mode := .restoring, restore := some 90000 } }).supply.mode =
        .normal := by decide

/-- R117, R118: a round that SET SITE starts first makes its other effects late: the expiry an overrun, the replan kept. -/
theorem test_set_site_late :
    (let s := after (.setSite 7 { siteDefaults with restoreDelay := 90, roundPeriod := 20 })
        { State.reset with
          supply := { Supply.init with mode := .restoring, restore := some 90000 }
          planner := { Planner.init with timer := 20000 } };
      s.planner.round.isSome = true ∧ s.attention.roundOverrun = true) ∧
    (let s := after (.setSite 7 { siteDefaults with roundPeriod := 20, startLead := 16 })
        { State.reset with planner := { Planner.init with timer := 20000 } };
      s.planner.round.isSome = true ∧ s.planner.replan = true ∧ s.attention.roundOverrun = false) := by decide

/-- 12 section 13.2: READ SITE at the power-on values. -/
theorem test_read_site :
    (after (.readSite 7) State.reset).link.sent.map Reply.payload =
      [[0, 200, 0, 100, 0, 120, 0, 40, 0, 30, 10, 0, 0, 180, 30, 15, 20, 30, 0x02, 0xD0, 0xFF, 0x38, 1, 0, 0, 0, 0, 0, 0, 0,
        0, 0, 0, 0, 0, 0, 0, 0, 0, 0, 0, 0, 0, 0]] := by decide

/-- R48, R50: SET TIME sets the clock; READ TIME returns it. -/
theorem test_time :
    (after (.setTime 7 1770 0) (clocked 1710)).clock = { prescaler := 0, second := 0, minute := 1770, isSet := true } ∧
      statuses (.setTime 7 10080 0) (clocked 1710) = [.badField] ∧
      (after (.readTime 7) (clocked 1770)).link.sent.map Reply.payload = [[0x06, 0xEA, 0, 1]] := by decide

/-- R60, R61: SET POST at an occupied post, and service OUT of a BOUND one. -/
theorem test_set_post :
    statuses (.setPost 7 (postNine 2)) (life .pending 1700) = [.busy] ∧
      (after (.setPost 7 (postNine 4)) State.reset).bus.posts[9].feedLimit = 6000 ∧
      (after (.setPost 7 { postNine 1 with service := 0 }) (life .heating 1700)).arbiter.inFlight =
        some (.posts (.unbind 9 ⟨12, 3⟩ .serviceOut)) := by decide

/-- R60, R62, R66: SET POST that names all four settings of an OUT post with its plug level high. -/
theorem test_set_post_whole :
    let s := after (.setPost 7 (postNine 15)) { State.reset with
      plug := State.reset.plug.set 9 { LineFilter.init with filtered := .high } }
    let p := s.bus.posts[9]
    (p.inService, p.heater, p.feedLimit, p.pollMode, p.state) = (true, .stepped, 6000, .direct, .occupied) ∧
      s.attention.posts[9].pluggedIn = true ∧ s.link.sent.map Reply.clamped = [true] := by decide

/-- 12 section 13.3: the image of post 9, BOUND to order 12/3. -/
theorem test_read_post :
    (after (.readPost 7 9) (life .heating 0)).link.sent.map Reply.payload =
      [[9, 1, 0, 0x1B, 0x58, 0, 3, 0, 12, 3, 3, 0x10, 0x15, 0xFF, 0x4C, 0xFF, 0x06, 0xFF, 0, 0, 0, 0, 0, 0, 0, 0, 0, 0, 0, 0,
        0, 0, 0, 0]] := by decide

/-- R100, R101: SET CLASS in use, and CLEAR CLASS of a class an order names. -/
theorem test_classes :
    statuses (.setClass 7 { classThree with pmax := 5099 }) (life .heating 1700) = [.done] ∧
      statuses (.setClass 7 { classThree with pmax := 5100 }) (life .heating 1700) = [.inUse] ∧
      statuses (.clearClass 7 3) (life .pending 1700) = [.inUse] ∧
      (after (.clearClass 7 3) (clocked 0)).classes[3].params = none := by decide

/-- R160, R161: CLOCK NOT SET is source 7, and no clear takes a level flag away. -/
theorem test_attention :
    (after (.readAttention 7 none)
      { State.reset with attention := { Attention.init with masks := 0xFFFFFFFF, groups := 0xF } }).link.sent.map
        (fun r => r.payload.take 2) = [[7, 1]] ∧
      (after (.readAttention 7 (some 17)) (life .heating 0)).link.sent.map Reply.payload = [[17, 0, 0, 0, 3, 0, 0, 0]] ∧
      (after (.clearAttention 7 7 1) State.reset).link.sent.map Reply.payload = [[1]] ∧
      (after (.clearAttention 7 1 1) { State.reset with attention := { Attention.init with modeChange := true } }).attention =
        Attention.init := by decide

/-- R88, R89: the binding attempt of 01 section 2.9. -/
theorem test_bind_access :
    let s := after .bindAccess (inFlight (life .pending 1420)
      (.bind 9 { vehicle := some 4117, plugOut := false, serviceOut := false }))
    (s.store.readOrder 12).map (fun o => (o.state, o.boundPost)) = some (.waiting, some 9) ∧
      s.store.table[9] = some ⟨12, 3⟩ ∧ s.bus.posts[9].state = .bound ∧ s.planner.round.isSome = true := by decide

/-- R92, R95: an unplug inside the depart window closes, one before it returns the order to PENDING. -/
theorem test_unbind_access :
    let s (m : Nat) := after .unbindAccess (inFlight (life .heating m) (.posts (.unbind 9 ⟨12, 3⟩ .unplug)))
    ((s 1710).store.readOrder 12).map (fun o => o.outcome) = some (some (.late, 1710)) ∧
      ((s 1709).store.readOrder 12).map (fun o => o.state) = some .pending := by decide

/-- R19, R21: a stall and a recovery. -/
theorem test_stall_and_recovery :
    ((after .stallEntry (inFlight (life .heating 1700) (.posts (.stall 9 ⟨12, 3⟩ .heaterFault)))).store.readOrder 12).map
      (fun o => (o.state, o.stall)) = some (.stalled, some .heaterFault) ∧
    ((after .recovery (inFlight (life .stalled 1700) (.posts (.recover 9 ⟨12, 3⟩)))).store.readOrder 12).map
      (fun o => o.state) = some .waiting := by decide

/-- 04 section 5.5: the energy of the worked report. -/
theorem test_add_energy :
    ((after .addEnergy (inFlight (life .heating 1700) (.posts (.addEnergy 9 ⟨12, 3⟩ 256)))).store.readOrder 12).map
      Order.energy = some 6376 := by decide

/-- The REPORT of 04 section 5.5: vehicle 4117, cabin 5.1, outside −25.0, RUNNING, energy 120, nothing applied. -/
def reportNine : List Byte :=
  let body := [9, 0x81, 0x10, 0x15, 3, 0, 51, 0xFF, 0x06, 1, 0, 120, 0, 0]
  0xC3 :: body ++ [crc8 body]

/-- Post 9's poll in flight, its baseline 65400 kJ. -/
def polled (s : State) : State :=
  { atNine s (fun p => { p with baseline := some 65400 }) with
    bus := { (atNine s (fun p => { p with baseline := some 65400 })).bus with
      exchange := some { post := 9, level := none, pollMode := .latent, fetchMark := true, plugInSince := false
                         timer := 0 } } }

/-- 04 section 5.5: the report during a round goes to the pending report, and the energy access is presented. -/
theorem test_post_reply :
    let s := after (.postReply reportNine) (polled (atNine (life .heating 1700) (fun p => { p with roundMark := true })))
    s.bus.posts[9].current.cabin = some (-180) ∧
      s.bus.posts[9].held = { vehicle := some 4117, cabin := some 51, outside := some (some (-250)) } ∧
      s.bus.posts[9].baseline = some 120 ∧ s.arbiter.inFlight = some (.posts (.addEnergy 9 ⟨12, 3⟩ 256)) ∧
      s.bus.queue = [.recover 9 ⟨12, 3⟩] := by decide +kernel

/-- R74, R76: the fourth timeout in a row makes the post SILENT and stalls its order. -/
theorem test_reply_timeout :
    let s := after .replyTimeout (atNine (polled (life .heating 1700)) (fun p => { p with silence := 3, age := 3 }))
    s.bus.posts[9].silent = true ∧ s.arbiter.inFlight = some (.posts (.stall 9 ⟨12, 3⟩ .postSilent)) := by decide

/-- R75: a SETPOINT 39 still in flight at a post gone OUT leaves it a final setpoint owed. -/
theorem test_overshoot_at_out_post :
    let s := after .replyTimeout { State.reset with
      bus := { Bus.init with
        posts := Bus.init.posts.set 9 { Post.init with sent := some 0 }
        exchange := some { post := 9, level := some 39, pollMode := .latent, fetchMark := false, plugInSince := false
                           timer := 0 } } }
    s.bus.posts[9].sent = some 3900 ∧ s.bus.posts[9].finalOwed = true := by decide

/-- R69: a reduction claim is served first, with SETPOINT of the recorded grant. -/
theorem test_exchange_start :
    (after .exchangeStart (atNine (life .heating 1700)
      (fun p => { p with sent := some 1700, recorded := 1000, claim := true }))).bus.exchange =
      some { post := 9, level := some 10, pollMode := .latent, fetchMark := false, plugInSince := false, timer := 0 } := by
  decide

/-- R66, R67: a plug-out at a BOUND post. -/
theorem test_plug_filter :
    let s := after (.plugFilterExpiry 9) { life .heating 1700 with
      plug := State.reset.plug.set 9 { line := .low, filtered := .high, timer := some 2000 } }
    s.bus.posts[9].state = .empty ∧ s.attention.posts[9].pluggedOut = true ∧
      s.arbiter.inFlight = some (.posts (.unbind 9 ⟨12, 3⟩ .unplug)) := by decide

/-- R148, R149: shed called, shed left, and the restore timer's expiry with limit called. -/
theorem test_site_modes :
    (after (.siteLineFilterExpiry .shed) { State.reset with
      supply := { Supply.init with shed := { line := .high, filtered := .low, timer := some 2000 } } }).supply.mode = .shed ∧
    (after (.setMode 7 0) { State.reset with supply := { Supply.init with forced := .shed, mode := .shed } }).supply.mode =
      .restoring ∧
    (after .restoreTimerExpiry { State.reset with
      supply := { Supply.init with forced := .limited, mode := .restoring, restore := some 5 } }).supply.mode =
      .limited := by decide

/-- R144: the counter holds at 4095 and the overrange indicator is set. -/
theorem test_meter_pulse :
    let s := after (.meterPulse .rising) { State.reset with supply := { Supply.init with counter := 4095 } }
    s.supply.counter = 4095 ∧ s.supply.overrange = true ∧ s.attention.meterOverrange = true := by decide

/-- 01 section 2.9: the round at 04:12 decides HEATING and a grant of 3900 W. -/
theorem test_round_heats :
    let s := after .writeBack (after .roundCompute (after .snapshotRead (after .roundTimerExpiry (life .waiting 1692))))
    (s.store.readOrder 12).map (fun o => (o.state, o.grant, o.short, o.behind)) = some (.heating, 3900, false, false) ∧
      s.bus.posts[9].recorded = 3900 ∧ s.planner.round = none ∧ s.planner.ranking = [⟨12, 3⟩] := by decide

/-- R122, R18: the sweep at 21 minutes past the departure closes the PENDING order LAPSED, at 20 it stands. -/
theorem test_sweep_lapses :
    let s (m : Nat) := after .sweepRead (after .roundTimerExpiry (life .pending m))
    ((s 1761).store.readOrder 12).map Order.outcome = some (some (.lapsed, 1761)) ∧
      ((s 1760).store.readOrder 12).map Order.state = some .pending := by decide

/-- R176: the supervision timer's expiry enters autonomy and starts a round. -/
theorem test_supervision :
    let s := after .supervisionExpiry { State.reset with link := { Link.init with supervisionTime := 60, supervision := some 0 } }
    s.link.autonomy = true ∧ s.attention.modeChange = true ∧ s.planner.round.isSome = true := by decide

/-- Log entry 1: a step with nothing waiting is a millisecond. -/
theorem test_empty_queue_ticks :
    (match step State.reset with | .next t => t.clock.prescaler | _ => 0) = 1 := by decide +kernel

/-- R117: the restore timer and the round timer at one tick: the replan of the first starts a round, and the expiry of the
second is an overrun. -/
theorem test_tick_late_expiry :
    (match step { State.reset with
        supply := { Supply.init with mode := .restoring, restore := some 179999 }
        planner := { Planner.init with timer := 29999 } } with
      | .next t => (t.planner.round.isSome, t.attention.roundOverrun)
      | _ => (false, false)) = (true, true) := by decide +kernel

/-! ### The statements' hypotheses, met clause by clause -/

/-- A port at its power-on values carries out any request. -/
theorem ready_of_init (s : State) (h : s.link = Link.init) : s.ready := by
  rw [State.ready, h]
  exact ⟨rfl, rfl, rfl⟩

/-- Every timer, `k` milliseconds above the count that makes it due at the next one. -/
def timersDue (k : Nat) : State :=
  { State.reset with
    clock := { State.reset.clock with prescaler := 999 - k }
    link := { Link.init with
      receiver := .length, gap := 20 - k, supervisionTime := 60, supervision := some (59999 - k) }
    bus := { Bus.init with
      exchange := some
        { post := 9, level := none, pollMode := .latent, fetchMark := false, plugInSince := false, timer := 24 - k } }
    plug := State.reset.plug.set 9 { line := .high, filtered := .low, timer := some (1999 - k) }
    planner := { Planner.init with timer := 29999 - k }
    supply := { Supply.init with
      limit := { line := .high, filtered := .low, timer := some (1999 - k) }
      shed := { line := .high, filtered := .low, timer := some (1999 - k) }, mode := .restoring
      restore := some (179999 - k) } }

/-- O2: the guards of the millisecond's expiries, each timer due and each a millisecond short. -/
theorem witness_EveryStepAnswers :
    (let t := (timersDue 0).runTimers;
      20 < t.link.gap ∧ t.bus.exchange.map Exchange.timer = some 25 ∧ t.plug[9].timer = some 2000 ∧
        t.supply.limit.timer = some 2000 ∧ t.supply.shed.timer = some 2000 ∧
        t.supply.restore = some (t.site.restoreDelay * 1000) ∧
        t.link.supervision = some (t.link.supervisionTime * 1000) ∧ 1000 ≤ t.clock.prescaler ∧
        t.site.roundPeriod * 1000 ≤ t.planner.timer) ∧
      let t := (timersDue 1).runTimers;
      t.link.gap ≤ 20 ∧ t.bus.exchange.map Exchange.timer = some 24 ∧ t.plug[9].timer = some 1999 ∧
        t.supply.limit.timer = some 1999 ∧ t.supply.shed.timer = some 1999 ∧
        t.supply.restore = some (t.site.restoreDelay * 1000 - 1) ∧
        t.link.supervision = some (t.link.supervisionTime * 1000 - 1) ∧ t.clock.prescaler < 1000 ∧
        t.planner.timer < t.site.roundPeriod * 1000 := by decide

/-- R46, R65, R68, R146, R164, R176: what the millisecond does when every timer is due, and a millisecond before. -/
theorem test_tick_expiries :
    (match step (timersDue 0) with
      | .next t => (t.clock.second, t.link.receiver, t.bus.exchange, t.plug[9].filtered, t.supply.limit.filtered
          , t.link.autonomy)
      | _ => (0, .length, none, .low, .low, false)) = (1, .hunting, none, .high, .high, true) ∧
    (match step (timersDue 1) with
      | .next t => (t.clock.second, t.link.receiver, t.bus.exchange.isSome, t.plug[9].filtered, t.supply.limit.filtered
          , t.link.autonomy)
      | _ => (1, .hunting, false, .high, .high, true)) = (0, .length, true, .low, .low, false) := by decide +kernel

/-- O5: each clause, at second 58, and at second 59 of minutes 10078 and 10079. -/
theorem witness_SecondBoundaryAdvances :
    [((58 : Nat), (10079 : Nat)), (59, 10078), (59, 10079)].all (fun x => x.1 ≤ 59 && x.2 ≤ 10079) = true := by decide

/-- O6: the readings at the two ends of the window. -/
theorem witness_AheadReading :
    0 < 10080 ∧ 8640 < 10080 ∧ aheadMinutes 0 8640 = 8640 ∧ 8641 < 10080 ∧ isBehind 0 8641 = true := by decide

/-- O7: each verdict, and a slot number above 63. -/
theorem witness_HandleVerdict :
    (life .pending 0).store.rawVerdict ⟨12, 3⟩ = .live ∧ (life .closed 0).store.rawVerdict ⟨12, 3⟩ = .closed ∧
      (life .pending 0).store.rawVerdict ⟨12, 4⟩ = .unknown ∧ 63 < (⟨64, 3⟩ : RawHandle).slot := by decide

/-- A receiver in a given place. -/
def receiving (r : Receiver) : State := { State.reset with link := { Link.init with receiver := r } }

/-- O9: a receiver in each place; bytes before a start byte; the longest payload, a body going on, a length just above
the longest; and the longest frame a byte short. -/
theorem witness_FrameReceivedBuffers :
    (∀ r, (receiving r).link.receiver = r) ∧ (0xA5 : Byte) ∉ [(0x00 : Byte), 0x5A] ∧
      (List.replicate 60 (0 : Byte)).length ≤ 60 ∧ [(0x11 : Byte)] ++ [0x2A, 0] = 0x11 :: 0x2A :: ([] ++ [0]) ∧
      60 < (61 : Byte).toNat ∧
      ((60 : Byte).toNat ≤ 60 ∧ (List.replicate 62 (0 : Byte)).length < (60 : Byte).toNat + 3) ∧
      (List.replicate 61 (0 : Byte) ++ [1]).length < (60 : Byte).toNat + 3 :=
  ⟨fun _ => rfl, by decide, by decide, by decide, by decide, by decide, by decide⟩

/-- O10: a running supervision timer. -/
theorem witness_LinkTimeouts :
    ∃ s : State, s.link.supervision = some 9999 ∧ s.link.autonomy = false :=
  ⟨{ State.reset with link := { Link.init with supervision := some 9999 } }, rfl, rfl⟩

/-- A port with posted changes waiting, and a request in progress or none, over the store of `life`. -/
def waiting (x : OrderState) (posting : List Change) (r : Option Request) : State :=
  { life x 1320 with
    link := { Link.init with
      posting := posting, inProgress := r.map (fun r => { request := r, tag := 7, stage := .taken }) } }

/-- O11: a buffered frame and no request in progress; a code that is no request and one that is a change; both posting
slots full of other slots, one free, and one waiting for the same slot; and an empty buffer. -/
theorem witness_FrameTakenJudged :
    (∀ f : Frame, ∃ s : State, s.link.buffer = some f ∧ s.link.inProgress = none) ∧ parseRequest 0x00 [] = none ∧
      parseRequest 0x03 [12, 3] = some (.change (.withdraw ⟨12, 3⟩)) ∧
      (let s := waiting .pending [.withdraw ⟨1, 0⟩, .withdraw ⟨2, 0⟩] none;
        s.link.postingEnabled = true ∧ (∀ w ∈ s.link.posting, w.handle.slot ≠ 12) ∧ 2 ≤ s.link.posting.length) ∧
      (waiting .pending [.withdraw ⟨1, 0⟩] none).link.posting.length < 2 ∧
      (∃ w ∈ (waiting .pending [.withdraw ⟨12, 3⟩] none).link.posting, w.handle.slot = 12) ∧
      State.reset.link.buffer = none :=
  ⟨fun f => ⟨{ State.reset with link := { Link.init with buffer := some f } }, rfl, rfl⟩, by decide, by decide, by decide,
    by decide, by decide, by decide⟩

/-- O11: a code byte that WALK_START takes, a payload of the length its code asks for, and one a byte longer. -/
theorem witness_RequestLayouts :
    (0 : Byte) ≠ 2 ∧ (parseRequest 0x0E [15]).isSome = true ∧ ((0x0E : Byte).toNat, [(15 : Byte), 0].length) = (14, 2) := by
  decide

/-- O12: a port that carries PLACE out, with the clock set and not, and a departure that reads as behind and not. -/
theorem witness_PlaceAtPort :
    (∀ minute, (clocked minute).ready) ∧ State.reset.ready ∧
      isBehind 1320 placeLife.departure = false ∧ isBehind 1741 placeLife.departure = true :=
  ⟨fun _ => ready_of_init _ rfl, ready_of_init _ rfl, by decide, by decide⟩

/-- O13: each change posted, with none and with one waiting for another slot, and a handle that is live, closed and
unknown. -/
theorem witness_ChangesPosted :
    (∀ c : Change, (waiting .pending [] none).postable c) ∧ (∀ c : Change, (waiting .closed [] none).postable c) ∧
      (waiting .pending [.withdraw ⟨1, 0⟩] none).postable (.amend (amendLife 1)) ∧
      (life .pending 1320).store.rawVerdict ⟨12, 3⟩ = .live ∧ (life .closed 1320).store.rawVerdict ⟨12, 3⟩ = .closed ∧
      (life .closed 1320).store.rawVerdict ⟨12, 4⟩ = .unknown := by
  refine ⟨fun c => ⟨rfl, rfl, rfl, Nat.zero_lt_two, fun w h => nomatch h⟩,
    fun c => ⟨rfl, rfl, rfl, Nat.zero_lt_two, fun w h => nomatch h⟩, ⟨rfl, rfl, rfl, Nat.one_lt_two, ?_⟩, by decide,
    by decide, by decide⟩
  decide

/-- O14: posting disabled. -/
theorem witness_ChangesUnposted :
    State.unposted { life .pending 1320 with link := { Link.init with postingEnabled := false } } ∧
      (life .pending 1320).store.rawVerdict ⟨12, 3⟩ = .live :=
  ⟨⟨⟨rfl, rfl, rfl⟩, rfl⟩, by decide⟩

/-- O14: a change ahead of a read, of a change of the same slot, and of a change with posting disabled; a request waiting
and none waiting after the last drain; and a round due there and none. -/
theorem witness_RequestsWait :
    (let s := waiting .pending [.withdraw ⟨12, 3⟩] none;
      s.link.posting ≠ [] ∧ s.link.inProgress = none ∧ s.link.buffer = none ∧
        ∃ w ∈ s.link.posting, w.handle.slot = (Change.release ⟨12, 3⟩).handle.slot) ∧
      (∀ p, (waiting .closed [] none).link.inProgress = some p → p.stage ≠ .taken) ∧
      (∀ r, (waiting .closed [] (some r)).link.posting = [] ∧
        (waiting .closed [] (some r)).link.inProgress = some { request := r, tag := 7, stage := .taken }) ∧
      (waiting .closed [] none).planner.round = none ∧ (waiting .closed [] none).planner.replan = false ∧
      { Planner.init with replan := true }.replan = true :=
  ⟨by decide, fun _ h => (nomatch h), fun _ => ⟨rfl, rfl⟩, by decide, by decide, by decide⟩

/-- O15: LOOKUP of a live handle and FIND at the ends of the vehicle range. -/
theorem witness_LookupFindAtPort :
    (life .pending 0).ready ∧ (life .pending 0).ready ∧
      (⟨12, 3⟩ : RawHandle).handle? = some ⟨12, 3⟩ ∧ (⟨64, 3⟩ : RawHandle).handle? = none :=
  ⟨ready_of_init _ rfl, ready_of_init _ rfl, by decide, by decide⟩

/-- The store of `life` with its slot walked to. -/
def walking (w : Walk) (ranking : List Handle) : State :=
  { life .pending 0 with link := { Link.init with walk := w }, planner := { Planner.init with ranking := ranking } }

/-- O16: a SLOT walk that finds a slot and one that does not, and a RANK walk in its four cases. -/
theorem witness_Walks :
    (life .pending 0).store.lowestOccupied 0 12 ∧ (∀ n, (State.reset.store.dir n).occupancy = .free) ∧
      (life .pending 0).store.lowestOccupied ((11 : Fin 64).val + 1) 12 ∧
      (∀ n : Fin 64, 12 < n → ((life .pending 0).store.dir n).occupancy = .free) ∧
      (∀ w l, (walking w l).ready) ∧ (∀ w l, (walking w l).link.walk = w) ∧
      (walking (.rank [⟨12, 3⟩] false) [⟨12, 3⟩, ⟨1, 0⟩]).planner.ranking = [⟨12, 3⟩] ++ ⟨1, 0⟩ :: [] ∧
      (∀ x ∈ [(⟨12, 3⟩ : Handle)], x ∈ [(⟨12, 3⟩ : Handle)]) ∧ (⟨1, 0⟩ : Handle) ∉ [(⟨12, 3⟩ : Handle)] ∧ 2 < 3 := by
  refine ⟨?_, by decide +kernel, ?_, by decide +kernel, fun _ _ => ⟨rfl, rfl, rfl⟩, fun _ _ => rfl, rfl, by decide,
    by decide, by decide⟩ <;>
    exact ⟨by decide, by decide +kernel, by decide +kernel⟩

/-- O17: a mask that names every bit in turn, the ends of the class and tier codes, and an earliest start after the
departure. -/
theorem witness_AmendedRecord :
    (amendLife 0x1FF).mask.getLsbD 8 = true ∧ (amendLife 4).mask.getLsbD 2 = true ∧ (amendLife 4).cls < 16 ∧
      (amendLife 8).mask.getLsbD 3 = true ∧ (amendLife 8).tier < 3 ∧ (amendLife 8).mask.getLsbD 2 = false ∧
      (amendLife 4).mask.getLsbD 3 = false ∧ ((orderLife .pending).amend 1320 (amendLife 0x20)).earliest = some 1700 ∧
      ((orderLife .pending).amend 1320 (amendLife 0x40)).earliest = none := by decide

/-- O18: the requests are ready; a forced mode of each code, and 3. -/
theorem witness_TimeModeReplan :
    State.reset.ready ∧ State.reset.ready ∧ State.reset.ready ∧
      State.reset.ready ∧ 2 < 3 ∧
      [0, 1, 2] = [ForcedMode.none, .limited, .shed].map (fun v => match v with | .none => 0 | .limited => 1 | .shed => 2) :=
  ⟨ready_of_init _ rfl, ready_of_init _ rfl, ready_of_init _ rfl, ready_of_init _ rfl, by decide, by decide⟩

/-- A round in flight with rows. -/
def inRound (s : State) (phase : Phase) (rows : List RowEntry) : State :=
  { s with planner := { Planner.init with
      round := some { phase := phase, now := s.clock.minute, startLead := 15, grace := 20, fallback := -200
                      rows := rows } } }

/-- O19: a meter edge outside its set; settings within their ranges and clamped; a restore delay at the running count and
one second above it; a round period at the round timer and a second above it, with a round in flight and none; and a
changed start lead. -/
theorem witness_SetSiteStores :
    State.reset.ready ∧ 1 < { siteDefaults with meterEdge := 2 }.meterEdge ∧ siteDefaults.meterEdge ≤ 1 ∧
      (let s := { State.reset with supply := { Supply.init with mode := .restoring, restore := some 90000 } };
        s.ready ∧ s.supply.mode = .restoring ∧ 90 ≠ s.site.restoreDelay ∧ (∃ n ∈ s.supply.restore, 90 ≤ n / 1000) ∧
          ¬ ∃ n ∈ s.supply.restore, 91 ≤ n / 1000) ∧
      (let s := { State.reset with planner := { Planner.init with timer := 20999 } };
        s.ready ∧ 20 ≠ s.site.roundPeriod ∧ 20 ≤ s.planner.timer / 1000 ∧ ¬ 21 ≤ s.planner.timer / 1000) ∧
      (inRound State.reset .compute []).ready ∧ (inRound State.reset .compute []).planner.round ≠ none ∧
      16 ≠ State.reset.site.startLead :=
  ⟨ready_of_init _ rfl, by decide, by decide, ⟨ready_of_init _ rfl, by decide, by decide, ⟨90000, rfl, by decide⟩,
    fun ⟨n, h, k⟩ => by cases h; omega⟩, ⟨ready_of_init _ rfl, by decide, by decide, by decide⟩, ready_of_init _ rfl,
    by decide, by decide⟩

/-- O20: READ SITE, and SET LINK at both ends of the posting values. -/
theorem witness_SiteAndLinkRequests :
    State.reset.ready ∧ State.reset.ready ∧ State.reset.ready :=
  ⟨ready_of_init _ rfl, ready_of_init _ rfl, ready_of_init _ rfl⟩

/-- O21: a post above 23, a service outside its set, a changed interface at an OCCUPIED post, a change of the three
settings at an OUT post, and post 23 read. -/
theorem witness_SetPostAndRead :
    (life .pending 0).ready ∧ 23 < { postNine 0 with post := 24 }.post ∧
      ((postNine 1).mask.getLsbD 0 = true ∧ 1 < { postNine 1 with service := 2 }.service) ∧
      (life .pending 0).bus.posts[9].state = .occupied ∧
      ((postNine 2).mask.getLsbD 1 = true ∧
        (postNine 2).interface_ = 1 ∧ (life .pending 0).bus.posts[9].heater = .continuous) ∧
      ((postNine 14).mask.getLsbD 0 = false ∧ (postNine 14).interface_ = 1 ∧
        6000 = min 10000 (max 1000 (postNine 14).feedLimit) / 100 * 100 ∧ (postNine 14).pollMode = 1 ∧
        State.reset.bus.posts[9].state = .out) ∧
      State.reset.ready ∧ 23 < 24 :=
  ⟨ready_of_init _ rfl, by decide, by decide, by decide, by decide, by decide,
    ready_of_init _ rfl, by decide⟩

/-- The note of a binding attempt for vehicle 4117. -/
def noteLife : BindNote := { vehicle := some 4117, plugOut := false, serviceOut := false }

/-- O22: the service named alone at a BOUND post, and with the three settings at an OUT post; service OUT with an attempt
in flight at the post and with none; service IN with the plug level low and high; and a service already held. -/
theorem witness_SetPostService :
    (life .heating 0).ready ∧ State.reset.ready ∧ (postNine 15).post = (9 : Fin 24) ∧
      ((postNine 1).mask.getLsbD 0 = true ∧ (postNine 1).mask.getLsbD 1 = false ∧ (postNine 1).mask.getLsbD 2 = false ∧
        (postNine 1).mask.getLsbD 3 = false ∧ (life .heating 0).bus.posts[9].state = .bound ∧
        (life .heating 0).bus.posts[9].inService = true ∧ (life .heating 0).store.table[9] = some ⟨12, 3⟩) ∧
      ((postNine 15).mask.getLsbD 0 = true ∧ (postNine 15).mask.getLsbD 1 = true ∧ (postNine 15).interface_ = 1 ∧
        (postNine 15).mask.getLsbD 2 = true ∧ 6000 = min 10000 (max 1000 (postNine 15).feedLimit) / 100 * 100 ∧
        (postNine 15).mask.getLsbD 3 = true ∧ (postNine 15).pollMode = 1 ∧ State.reset.bus.posts[9].state = .out ∧
        (postNine 15).service = 1 ∧ State.reset.bus.posts[9].inService = false) ∧
      (inFlight (life .pending 0) (.bind 9 noteLife)).arbiter.inFlight = some (.bind 9 noteLife) ∧
      (∀ note, (life .heating 0).arbiter.inFlight ≠ some (.bind 9 note)) ∧
      State.reset.plug[9].filtered = .low ∧
      { State.reset with plug := State.reset.plug.set 9 { LineFilter.init with filtered := .high } }.plug[9].filtered =
        .high :=
  ⟨ready_of_init _ rfl, ready_of_init _ rfl, by decide, by decide, by decide, rfl, fun _ h => (by cases h), by decide,
    by decide⟩

/-- O23: a class above 15, SET CLASS with and without a round, and a class defined and not. -/
theorem witness_ClassRequests :
    (life .heating 0).ready ∧ 15 < { classThree with cls := 16 }.cls ∧ classThree.cls = (3 : Fin 16) ∧
      (inRound (life .heating 0) .compute []).planner.round.isSome ∧
      (inRound (life .heating 0) .compute []).ready ∧ (life .heating 0).planner.round = none ∧
      (life .heating 0).classes[3].params = some params3 ∧ (life .heating 0).classes[4].params = none ∧
      15 < 16 ∧ 15 = (15 : Fin 16).val :=
  ⟨ready_of_init _ rfl, by decide, by decide, by decide, ready_of_init _ rfl, by decide,
    by decide, by decide, by decide, by decide⟩

/-- The attention unit with every source open. -/
def attending (s : State) : State := { s with attention := { s.attention with masks := 0xFFFFFFFF, groups := 0xF } }

/-- O24: the named form at both ends, CLOCK NOT SET the lowest waiting source, and none waiting. -/
theorem witness_AttentionReads :
    (attending State.reset).ready ∧ (attending (clocked 0)).ready ∧ 31 < 32 ∧ 31 = (31 : Fin 32).val ∧
      (attending State.reset).sourcePending 7 ∧ (attending State.reset).sourceEnabled 7 ∧
      (∀ m < (7 : Fin 32), ¬ ((attending State.reset).sourcePending m ∧ (attending State.reset).sourceEnabled m)) ∧
      (∀ n : Fin 32, ¬ ((attending (clocked 0)).sourcePending n ∧ (attending (clocked 0)).sourceEnabled n)) :=
  ⟨ready_of_init _ rfl, ready_of_init _ rfl, by decide, by decide, by decide +kernel, by decide +kernel,
    by decide +kernel, by decide +kernel⟩

/-- O25: SET MASKS ready. -/
theorem witness_MasksAndLine : State.reset.ready := ready_of_init _ rfl

/-- O26: a source and a flag set just outside, a post source, and a site source. -/
theorem witness_ClearAttentionFlags :
    State.reset.ready ∧ 31 < 32 ∧ (7 < 8 ∧ 1 < (2 : Byte).toNat) ∧ 63 < (64 : Byte).toNat ∧
      31 = 8 + (23 : Fin 24).val ∧ (63 : Byte).toNat ≤ 63 ∧ (1 : Byte).toNat ≤ 1 :=
  ⟨ready_of_init _ rfl, by decide, by decide, by decide, by decide, by decide, by decide⟩

/-- A request served serves. -/
theorem serves_serving (s : State) (h : s.link = Link.init) (r : Request) (a : LinkAccess) :
    (serving s r a).serves a r 7 := by
  refine ⟨rfl, ?_, rfl⟩
  show s.link.posting = []
  rw [h]
  rfl

/-- The vehicle's list filled with four orders of other departures. -/
def fourOrders (s : State) : State :=
  { s with store := { s.store with
      index := [{ vehicle := 4117, entries :=
        [⟨⟨0, 0⟩, 100⟩, ⟨⟨1, 0⟩, 101⟩, ⟨⟨2, 0⟩, 102⟩, ⟨⟨3, 0⟩, 103⟩] }] } }

/-- A store whose every slot is LIVE. -/
def tableFilled (s : State) : State :=
  { s with store := { s.store with
      slots := Vector.replicate 64 { dir := { DirEntry.freeAt 0 with occupancy := .live }, record := none } } }

/-- O27: each refusal in turn, the clock not set, PAST, DUPLICATE, VEHICLE FULL, TABLE FULL. -/
theorem witness_CreateAccess_refused :
    (∀ f, (serving State.reset (.place f) (.create f)).serves (.create f) (.place f) 7) ∧
      State.reset.clock.isSet = false ∧ (clocked 1320).clock.isSet = true ∧
      (placeLife.vehicle ≠ 0 ∧ placeLife.vehicle ≤ 65534 ∧ placeLife.tier ≤ 2 ∧ placeLife.departure ≤ 10079 ∧
        placeLife.cls = (3 : Fin 16) ∧ (clocked 1320).classes[3].params ≠ none ∧ placeLife.presence.getLsbD 0 = false) ∧
      isBehind 1741 1740 = true ∧ isBehind 1740 1740 = false ∧
      (∃ e ∈ (life .pending 1320).store.vehicleEntries 4117, e.departure = 1740) ∧
      ((∀ e ∈ (fourOrders (clocked 1320)).store.vehicleEntries 4117, e.departure ≠ 1740) ∧
        4 ≤ ((fourOrders (clocked 1320)).store.vehicleEntries 4117).length) ∧
      ((∀ e ∈ (tableFilled (clocked 1320)).store.vehicleEntries 4117, e.departure ≠ 1740) ∧
        ((tableFilled (clocked 1320)).store.vehicleEntries 4117).length < 4 ∧
        ∀ n, ((tableFilled (clocked 1320)).store.dir n).occupancy ≠ .free) :=
  ⟨fun _ => serves_serving _ rfl _ _, by decide, by decide, by decide, by decide, by decide, by decide, by decide,
    by decide +kernel⟩

/-- O27: the order stored, with an earliest start on the day of departure and no clamp. -/
theorem witness_CreateAccess_stored :
    let f := { placeLife with presence := 3, earliest := 1740, hold := 60 }
    (serving (clocked 1320) (.place f) (.create f)).serves (.create f) (.place f) 7 ∧
      f.tier = 1 ∧ (f.presence.getLsbD 0 = true ∧ f.earliest ≤ 10079) ∧
      isBehind 1320 f.departure = false ∧ (∀ x ∈ (clocked 1320).store.vehicleEntries f.vehicle, x.departure ≠ f.departure) ∧
      ((clocked 1320).store.vehicleEntries f.vehicle).length < 4 ∧ ((clocked 1320).store.dir 0).occupancy = .free ∧
      (∀ m < (0 : Fin 64), ((clocked 1320).store.dir m).occupancy ≠ .free) ∧
      ¬ aheadMinutes 1320 f.departure < aheadMinutes 1320 f.earliest :=
  ⟨serves_serving _ rfl _ _, by decide, by decide, by decide, by decide, by decide, by decide, by decide +kernel, by decide⟩

/-- O27: a post that gets an attempt, and a user set in ascending order that does not hold the new slot. -/
theorem witness_AttemptsAndUsers :
    (let b := (life .pending 0).bus;
      PostAccess.bind 9 ∉ b.queue ∧ b.posts[9].inService = true ∧ b.posts[9].state = .occupied ∧
        b.posts[9].silent = false ∧ b.posts[9].current.vehicle = 4117) ∧
      (life .pending 0).classes[(3 : Fin 16)].users.Pairwise (fun x y => x < y) ∧
      0 ∉ (life .pending 0).classes[(3 : Fin 16)].users := by decide

/-- A change whose posted access is in flight. -/
def draining (s : State) (c : Change) : State :=
  { inFlight s (.link c.access) with link := { s.link with posting := [c] } }

/-- An access of a request in progress and one of a posted change both end. -/
theorem ends_both (s : State) (h : s.link = Link.init) (c : Change) :
    (∃ k, (serving s (.change c) c.access).ends c.access k) ∧ ∃ k, (draining s c).ends c.access k :=
  ⟨⟨_, .inl ⟨_, _, serves_serving s h _ _, rfl⟩⟩, ⟨_, .inr ⟨c, [], ⟨rfl, rfl⟩, rfl, rfl⟩⟩⟩

/-- O28: the access ends in both ways; a handle unknown, closed, live and damaged, and live and sound. -/
theorem witness_AmendAccess :
    (∀ (x : OrderState) (f : AmendFields), (∃ k, (serving (life x 1320) (.change (.amend f)) (.amend f)).ends (.amend f) k) ∧
      ∃ k, (draining (life x 1320) (.amend f)).ends (.amend f) k) ∧
      (life .pending 1320).store.rawVerdict ⟨12, 4⟩ = .unknown ∧ (life .closed 1320).store.rawVerdict ⟨12, 3⟩ = .closed ∧
      (⟨12, 3⟩ : Handle).raw = (amendLife 1).handle ∧ (life .pending 1320).store.verdict ⟨12, 3⟩ = .live ∧
      (corrupt (life .pending 1320)).store.verdict ⟨12, 3⟩ = .live ∧
      (corrupt (life .pending 1320)).store.readOrder 12 = none ∧
      (life .pending 1320).store.readOrder 12 = some (orderLife .pending) :=
  ⟨fun x f => ends_both (life x 1320) rfl (.amend f), by decide, by decide, by decide, by decide, by decide, by decide,
    by decide⟩

/-- O29: the two accesses end in both ways; handles unknown, closed, live and damaged as in O28. -/
theorem witness_WithdrawAndFree :
    (∀ (x : OrderState) (h : RawHandle),
      ((∃ k, (serving (life x 1320) (.change (.withdraw h)) (.withdraw h)).ends (.withdraw h) k) ∧
        ∃ k, (draining (life x 1320) (.withdraw h)).ends (.withdraw h) k) ∧
      (∃ k, (serving (life x 1320) (.change (.release h)) (.free h)).ends (.free h) k) ∧
        ∃ k, (draining (life x 1320) (.release h)).ends (.free h) k) ∧
      (life .closed 1320).store.verdict ⟨12, 3⟩ = .closed :=
  ⟨fun x h => ⟨ends_both (life x 1320) rfl (.withdraw h), ends_both (life x 1320) rfl (.release h)⟩, by decide⟩

/-- O30: a read and an index read in flight; a record sound, damaged and marked damaged; and a
list of four. -/
theorem witness_ReadAndIndexAccess :
    (∀ r a, (serving (life .pending 0) r a).serves a r 7) ∧ (life .pending 0).store.verdict ⟨12, 3⟩ ≠ .unknown ∧
      (life .pending 0).store.readOrder 12 = some (orderLife .pending) ∧
      (corrupt (life .pending 0)).store.readOrder 12 = none ∧ ((corrupt (life .pending 0)).store.dir 12).damaged = false ∧
      (((life .pending 0).damaged ⟨12, 3⟩).store.dir 12).damaged = true ∧
      ((life .pending 0).damaged ⟨12, 3⟩).store.readOrder 12 = none ∧
      ((life .pending 0).damaged ⟨12, 3⟩).store.verdict ⟨12, 3⟩ ≠ .unknown ∧
      ((fourOrders State.reset).store.vehicleEntries 4117).length = 4 :=
  ⟨fun _ _ => serves_serving _ rfl _ _, by decide, by decide, by decide, by decide, by decide, by decide, by decide, by decide⟩

/-- O31: no tests passed, a conflict, no candidate inside the horizon (721 minutes off), and a candidate at its edge
(720 minutes off), sound and damaged. -/
theorem witness_BindAccess :
    (∀ s : State, ∀ note, (inFlight s (.bind 9 note)).arbiter.inFlight = some (.bind 9 note)) ∧
      (∃ e ∈ (life .heating 0).store.vehicleEntries 4117,
        ((life .heating 0).store.dir e.handle.slot).boundPost ≠ none) ∧
      (∀ m, m = 1019 ∨ m = 1020 → ∀ e ∈ (life .pending m).store.vehicleEntries 4117,
        ((life .pending m).store.dir e.handle.slot).boundPost = none ∧
          ((life .pending m).store.dir e.handle.slot).state = some .pending) ∧
      (State.reset.site.horizon < aheadMinutes 1019 1740 ∧ aheadMinutes 1020 1740 ≤ State.reset.site.horizon) ∧
      (∀ x ∈ (life .pending 1020).store.vehicleEntries 4117, x = { handle := ⟨12, 3⟩, departure := 1740 }) ∧
      (corrupt (life .pending 1020)).store.readOrder 12 = none ∧
      (life .pending 1020).store.readOrder 12 = some (orderLife .pending) :=
  ⟨fun _ _ => rfl, by decide, fun m h => by rcases h with rfl | rfl <;> decide, by decide, by decide, by decide, by decide⟩

/-- O32: each clause: a service OUT, a plug-out, a SILENT post, another vehicle, and the same vehicle. -/
theorem witness_BindingNotice :
    { noteLife with serviceOut := true }.serviceOut = true ∧ { noteLife with plugOut := true }.plugOut = true ∧
      noteLife.serviceOut = false ∧ noteLife.plugOut = false ∧ (life .pending 0).bus.posts[9].state = .occupied ∧
      (atNine (life .pending 0) (fun p => { p with silent := true })).bus.posts[9].silent = true ∧
      (life .pending 0).bus.posts[9].silent = false ∧ (life .pending 0).bus.posts[9].current.vehicle ≠ 0 ∧
      (life .pending 0).bus.posts[9].current.vehicle ≠ 1 ∧ (life .pending 0).bus.posts[9].current.vehicle = 4117 := by
  decide

/-- The order of `life` in a bound state is bound at post 9. -/
theorem boundOrder_life :
    (∀ x ∈ [OrderState.waiting, .heating, .holding, .stalled], (life x 1700).boundOrder 9 ⟨12, 3⟩ (orderLife x)) ∧
      ((life .stalled 1700).store.dir 12).state = some .stalled := by
  refine ⟨?_, by decide⟩
  intro x hx
  fin_cases hx <;> exact ⟨by decide, by decide, by decide⟩

/-- O33: the two clauses where they meet, 31 and 30 minutes before the departure. -/
theorem witness_UnbindAccess :
    (inFlight (life .heating 1700) (.posts (.unbind 9 ⟨12, 3⟩ .unplug))).boundOrder 9 ⟨12, 3⟩ (orderLife .heating) ∧
      State.reset.site.departWindow < aheadMinutes 1709 1740 ∧ aheadMinutes 1710 1740 ≤ State.reset.site.departWindow :=
  ⟨boundOrder_life.1 .heating (by simp), by decide, by decide⟩

/-- O34: an order of each bound state, with each access in flight. -/
theorem witness_BoundOrderAccesses :
    (∀ x ∈ [OrderState.waiting, .heating, .holding, .stalled], ∀ a,
      (inFlight (life x 1700) (.posts a)).boundOrder 9 ⟨12, 3⟩ (orderLife x) ∧
        (inFlight (life x 1700) (.posts a)).arbiter.inFlight = some (.posts a)) ∧
      ((life .stalled 1700).store.dir 12).state = some (orderLife .stalled).state :=
  ⟨fun x h _ => ⟨boundOrder_life.1 x h, rfl⟩, boundOrder_life.2⟩

/-- O35: a stale target, and a damaged one, with a stall of an order that is and one that is not STALLED. -/
theorem witness_StaleAndDamagedTargets :
    (∀ a, (inFlight (life .pending 1700) (.posts a)).staleTarget 9 ⟨12, 3⟩) ∧
      ((corrupt (life .heating 1700)).store.table[9] = some ⟨12, 3⟩ ∧
        (corrupt (life .heating 1700)).store.verdict ⟨12, 3⟩ = .live ∧
        (corrupt (life .heating 1700)).store.readOrder 12 = none ∧
        ((corrupt (life .heating 1700)).store.dir 12).state ≠ some .stalled) ∧
      ((corrupt (life .stalled 1700)).store.dir 12).state = some .stalled :=
  ⟨fun _ h => absurd h.1 (show ¬ (life .pending 1700).store.table[9] = some ⟨12, 3⟩ by decide), by decide, by decide⟩

/-- O36: a slot that is not DAMAGED. -/
theorem witness_RecordWrites : (State.reset.store.dir 63).damaged = false := by decide

/-- O37: a sound index, and its list ascending. -/
theorem witness_VehicleIndexOrder :
    (fourOrders State.reset).store.indexSound ∧
      ((fourOrders State.reset).store.vehicleEntries 4117).Pairwise
        (fun x y => aheadMinutes 0 x.departure ≤ aheadMinutes 0 y.departure) :=
  ⟨⟨by decide, by decide⟩, by decide⟩

/-- O38: a bound order and a sound index, a directory entry not LIVE, and one LIVE with its vehicle. -/
theorem witness_CloseReturnDamage :
    (life .heating 0).store.indexSound ∧ (orderLife .heating).boundPost = some 9 ∧
      ((life .closed 0).store.dir 12).occupancy ≠ .live ∧ ((life .heating 0).store.dir 12).occupancy = .live ∧
      ((life .heating 0).store.dir 12).vehicle = some 4117 :=
  ⟨⟨by decide, by decide⟩, by decide, by decide, by decide, by decide⟩

/-- O39: a post in service with its sent grant unknown and known, a recorded grant below it, at it and not raised. -/
theorem witness_EnginePostNotices :
    Post.init.inService = false ∧ { Post.init with inService := true }.sent = none ∧
      { Post.init with sent := some 1000 }.sent = some 1000 ∧ 900 < 1000 ∧ (1000 ≤ 1000 ∧ Post.init.recorded < 1000) ∧
      { Post.init with recorded := 1000 }.recorded = 1000 := by decide

/-- O40: an access in flight; nothing presented; and each requester first in turn from the pointer PLAN, LINK's access
alone, POSTS' alone and PLAN's alone. -/
theorem witness_ArbiterServes :
    (inFlight State.reset (.posts (.recover 9 ⟨12, 3⟩))).arbiter.inFlight ≠ none ∧
      (∀ r, State.reset.presented r = none) ∧
      ({ State.reset with link := { Link.init with posting := [.withdraw ⟨12, 3⟩] } }.presented .link =
        some (.link (.withdraw ⟨12, 3⟩)) ∧ Requester.link = State.reset.arbiter.pointer.next) ∧
      ({ State.reset with bus := { Bus.init with queue := [.recover 9 ⟨12, 3⟩] } }.presented .posts =
        some (.posts (.recover 9 ⟨12, 3⟩)) ∧ Requester.posts = State.reset.arbiter.pointer.next.next) ∧
      ((inRound State.reset (.sweep [⟨12, 3⟩]) []).presented .plan = some (.plan (.sweep ⟨12, 3⟩)) ∧
        Requester.plan = State.reset.arbiter.pointer) :=
  ⟨by decide, fun r => by cases r <;> decide, by decide, by decide, by decide⟩

/-- O40: what each requester presents: the oldest of two waiting changes, the access of a request in progress, and a request
that waits; a binding attempt whose post passes every test, another access, and none; and each phase's list. -/
theorem witness_RequestersPresent :
    (∃ c rest, (waiting .pending [.release ⟨12, 3⟩, .withdraw ⟨1, 0⟩] none).link.posting = c :: rest) ∧
      (∃ r tag a, (serving (life .pending 0) .readTime (.index 1)).link.inProgress =
        some { request := r, tag := tag, stage := .access a }) ∧
      (∀ p a, (waiting .pending [] (some .readTime)).link.inProgress = some p → p.stage ≠ .access a) ∧
      ({ life .pending 0 with bus := { (life .pending 0).bus with queue := [.bind 9] } }.bus.queue = .bind 9 :: [] ∧
        (life .pending 0).bus.posts[9].inService = true ∧ (life .pending 0).bus.posts[9].state = .occupied ∧
        (life .pending 0).bus.posts[9].silent = false ∧ (life .pending 0).bus.posts[9].current.vehicle ≠ 0 ∧
        (life .pending 0).store.table[9] = none) ∧
      (∀ n, PostAccess.recover 9 ⟨12, 3⟩ ≠ .bind n) ∧ State.reset.planner.round = none ∧
      (∀ p, ∃ r, (inRound State.reset p []).planner.round = some r ∧ r.phase = p) :=
  ⟨⟨_, _, rfl⟩, ⟨_, _, _, rfl⟩, fun p a h => by (cases h; simp), by decide, fun _ h => (nomatch h), by decide,
    fun _ => ⟨_, rfl, rfl⟩⟩

/-- O41: a round in flight and none, a replan pending and none. -/
theorem witness_RoundsStart :
    State.reset.planner.round = none ∧ (inRound State.reset .compute []).planner.round ≠ none ∧
      { State.reset with planner := { Planner.init with replan := true } }.planner.replan = true ∧
      State.reset.planner.replan = false := by decide

/-- O42: a snapshot's target stale, damaged and sound with its class defined; a sweep's stale, damaged, inside the grace
(20 minutes behind) and beyond it (21). -/
theorem witness_RoundReads :
    (∀ s a r, (inFlight (inRound s a r) (.plan (.sweep ⟨12, 3⟩))).planner.round.isSome) ∧
      (State.reset.staleTarget 9 ⟨12, 3⟩ ∧ State.reset.store.verdict ⟨12, 3⟩ ≠ .live) ∧
      ((corrupt (life .heating 0)).store.table[9] = some ⟨12, 3⟩ ∧
        (corrupt (life .heating 0)).store.verdict ⟨12, 3⟩ = .live ∧
        (corrupt (life .heating 0)).store.readOrder 12 = none) ∧
      ((life .heating 1700).boundOrder 9 ⟨12, 3⟩ (orderLife .heating) ∧
        (life .heating 1700).classes[(orderLife .heating).cls].params = some params3) ∧
      ((corrupt (life .pending 0)).store.verdict ⟨12, 3⟩ = .live ∧
        ((corrupt (life .pending 0)).store.dir 12).state = some .pending ∧
        (corrupt (life .pending 0)).store.readOrder 12 = none) ∧
      ((life .pending 1760).store.readOrder 12 = some (orderLife .pending) ∧ -20 ≤ aheadMinutes 1760 1740 ∧
        aheadMinutes 1761 1740 < -20 ∧ (orderLife .pending).state = .pending ∧ (orderLife .pending).reached = none) :=
  ⟨fun _ _ _ => rfl, ⟨fun h => absurd h.1 (by decide), by decide⟩, by decide,
    ⟨boundOrder_life.1 .heating (by simp), by decide⟩, by decide, by decide⟩

/-- O43: a round in COMPUTE with a row. -/
theorem witness_RoundCompute :
    ∃ r, (inRound (life .waiting 1692) .compute
      [{ row := rowLife .continuous (-180) .waiting, struck := false, kept := false, result := none }]).planner.round =
        some r ∧ r.phase = .compute := ⟨_, rfl, rfl⟩

/-- A row of the worked life with a result, struck or not. -/
def rowDone (struck holding : Bool) : RowEntry :=
  { row := rowLife .continuous (-180) .waiting, struck := struck, kept := false
    result := some { estimate := (rowLife .continuous (-180) .waiting).estimate 1692 15 (-200), eligible := true
                     holding := holding, grant := 3950, short := false } }

/-- O44: a row found with its result; struck; its order damaged, bound elsewhere, overstayed by a minute and not, and
STALLED; and a grant that the post takes, one that SHED refuses, and one of a WAITING order. -/
theorem witness_WriteBackDecides :
    (∀ b h, [rowDone b h].find? (fun e => e.row.post = 9) = some (rowDone b h)) ∧
      (∀ b h, (rowDone b h).result ≠ none ∧ (rowDone b h).row.handle = ⟨12, 3⟩) ∧ (rowDone true false).struck = true ∧
      (State.reset.store.verdict ⟨12, 3⟩ ≠ .live ∧ (life .waiting 1692).store.verdict ⟨12, 3⟩ = .live) ∧
      (corrupt (life .waiting 1692)).store.readOrder 12 = none ∧
      ((life .waiting 1692).store.readOrder 12 = some (orderLife .waiting) ∧ (orderLife .waiting).boundPost = some 9 ∧
        (orderLife .waiting).boundPost ≠ some 8) ∧
      (aheadMinutes 1761 1740 < -20 ∧ -20 ≤ aheadMinutes 1760 1740) ∧
      (orderLife .stalled).state = .stalled ∧ (orderLife .waiting).state ≠ .stalled ∧
      (heaterLimits params3 .continuous 7000).lower 3950 = 3900 ∧
      ((life .waiting 1692).bus.posts[9].inService = true ∧ (life .waiting 1692).bus.posts[9].state = .bound ∧
        (life .waiting 1692).store.table[9] = some ⟨12, 3⟩ ∧ (life .waiting 1692).bus.posts[9].silent = false ∧
        (life .waiting 1692).supply.mode ≠ .shed ∧ (life .waiting 1692).bus.queue = []) ∧
      { life .waiting 1692 with supply := { Supply.init with mode := .shed } }.supply.mode = .shed := by decide

/-- O45: a round before its release, at it, and at it with a SET CLASS held. -/
theorem witness_ReleaseEffects :
    Phase.compute ≠ .writeBack [] ∧ (∃ r, (inRound (life .heating 0) (.writeBack []) []).planner.round = some r ∧
      r.phase = .writeBack []) ∧
      (∀ p, (inRound (life .heating 0) (.writeBack []) []).link.inProgress = some p → p.stage ≠ .held) ∧
      ∃ s : State, s.planner.round.isSome ∧
        s.link.inProgress = some { request := .setClass classThree, tag := 7, stage := .held } ∧
        classThree.cls = (3 : Fin 16) :=
  ⟨by decide, ⟨_, rfl, rfl⟩, fun _ h => (nomatch h), ⟨{ inRound (life .heating 0) (.writeBack []) [] with
    link := { Link.init with
      inProgress := some { request := .setClass classThree, tag := 7, stage := .held } } }, rfl, rfl, rfl⟩⟩

/-- O46: an exchange in flight; no post to serve; a reduction claim at post 9; and post 9 next in the rotation, owed a
SETPOINT and not. -/
theorem witness_ExchangeStarts :
    (polled State.reset).bus.exchange ≠ none ∧
      (∀ n : Fin 24, State.reset.bus.posts[n].inService = false ∧ State.reset.bus.posts[n].finalOwed = false) ∧
      ((atNine (life .heating 0) (fun p => { p with claim := true })).bus.posts[9].claim = true ∧
        ∀ m < (9 : Fin 24), (atNine (life .heating 0) (fun p => { p with claim := true })).bus.posts[m].finalOwed = false) ∧
      ((life .heating 0).bus.exchange = none ∧
        (∀ m : Fin 24, (if (life .heating 0).bus.posts[m].inService then (life .heating 0).bus.posts[m].claim
          else (life .heating 0).bus.posts[m].finalOwed) = false) ∧
        (∀ m : Fin 24, (life .heating 0).bus.posts[m].inService = true → m = 9)) ∧
      ((life .heating 0).bus.posts[9].sent = some (life .heating 0).bus.posts[9].recorded ∧
        (atNine (life .heating 0) (fun p => { p with recorded := 100 })).bus.posts[9].sent ≠ some 100) := by
  decide +kernel

/-- O47: the REPORT of the worked case, a changed byte of it, and a frame of another length. -/
theorem witness_ReportFrame :
    reportNine.length = 16 ∧ parseReport 9 reportNine ≠ none ∧ parseReport 8 reportNine = none ∧
      (0xC3 :: reportNine).length ≠ 16 := by decide +kernel

/-- O48: an answered poll at a BOUND and at an OCCUPIED post in service, whose REPORT's fields are taken and, under LATENT
without the fetch mark, not. -/
theorem witness_AnsweredExchange :
    (∀ x ∈ [OrderState.pending, .heating], (polled (life x 1700)).bus.exchange.isSome = true ∧
      (polled (life x 1700)).bus.posts[9].inService = true ∧ (polled (life x 1700)).bus.posts[9].state ≠ .empty) ∧
      ((polled (life .heating 1700)).bus.posts[9].state = .bound ∧
        (polled (life .heating 1700)).store.table[9] = some ⟨12, 3⟩) ∧
      (polled (life .pending 1700)).bus.posts[9].state ≠ .bound ∧ (parseReport 9 reportNine).isSome = true := by
  decide +kernel

/-- O49: a timeout and a bad reply at an OUT post, at a BOUND post whose order stalls on both counts, and at one that is
not BOUND; a reply of an OUT post; and no exchange. -/
theorem witness_UnansweredExchange :
    (polled State.reset).bus.exchange.isSome = true ∧ parseReport 9 [] = none ∧
      (polled State.reset).bus.posts[9].inService = false ∧
      (let s := atNine (polled (life .heating 1700)) (fun p => { p with age := 2, silence := 3 });
        s.bus.posts[9].inService = true ∧ s.bus.posts[9].state = .bound ∧ s.bus.posts[9].age = 2 ∧
          s.bus.posts[9].silence = 3 ∧ s.store.table[9] = some ⟨12, 3⟩) ∧
      (polled (life .pending 1700)).bus.posts[9].state ≠ .bound ∧ (parseReport 9 reportNine).isSome = true ∧
      State.reset.bus.exchange = none ∧ (Post.init.recorded < 39 * 100 ∧ Post.init.inService = false) := by decide +kernel

/-- O50: each change of a line; an idle filter; and its expiry with the line high at an EMPTY post, low at a BOUND one
with and without an attempt in flight, and at a post that it leaves alone. -/
theorem witness_PlugLines :
    (Level.low = State.reset.plug[9].line ∧ Level.high ≠ State.reset.plug[9].line ∧
        Level.high ≠ State.reset.plug[9].filtered) ∧
      (let f : LineFilter := { line := .high, filtered := .low, timer := some 5 };
        Level.low ≠ f.line ∧ Level.low = f.filtered ∧ f.timer ≠ none) ∧
      State.reset.plug[9].timer = none ∧
      (atNine (life .pending 0) (fun p => { p with state := .empty })).bus.posts[9].inService = true ∧
      (atNine (life .pending 0) (fun p => { p with state := .empty })).bus.posts[9].state = .empty ∧
      ((life .heating 0).bus.posts[9].inService = true ∧ (life .heating 0).bus.posts[9].state = .bound) ∧
      ((inFlight (life .pending 0) (.bind 9 noteLife)).arbiter.inFlight = some (.bind 9 noteLife) ∧
        (life .pending 0).arbiter.inFlight = none) ∧
      State.reset.bus.posts[9].inService = false := by decide

/-- O51: each change of the two lines, an idle filter and a running one, RESTORING and not, and the counter at 4094 and
4095 on the selected edge and the other. -/
theorem witness_SiteLines :
    (Level.low = State.reset.supply.limit.line ∧ Level.high ≠ State.reset.supply.shed.line) ∧
      State.reset.supply.limit.timer = none ∧
      { Supply.init with shed := { line := .high, filtered := .low, timer := some 0 } }.shed.timer ≠ none ∧
      State.reset.supply.mode ≠ .restoring ∧ { Supply.init with mode := .restoring }.mode = .restoring ∧
      Edge.falling ≠ State.reset.site.meterEdge ∧ Edge.rising = State.reset.site.meterEdge ∧ 4094 < 4095 ∧ 4095 ≤ 4095 := by
  decide

/-- O52: no call changed; shed called and left with a restore delay and with none; limit called in NORMAL and left in
LIMITED. -/
theorem witness_SiteModeMoves :
    (Supply.init.shed.filtered ≠ .high ∧ Supply.init.forced ≠ .shed ∧ Supply.init.forced ≠ .limited) ∧
      ({ Supply.init with forced := .shed }.mode = State.reset.supply.mode ∧ Supply.init.mode ≠ .shed) ∧
      ({ Supply.init with forced := .shed, mode := .shed }.mode = .shed ∧ 0 < State.reset.site.restoreDelay) ∧
      { SiteSettings.init with restoreDelay := 0 }.restoreDelay = 0 ∧
      ({ Supply.init with forced := .limited }.mode = .normal ∧
        { Supply.init with forced := .limited, mode := .limited }.mode = .limited) := by decide

/-- O53: sent grants known, unknown with a row, and unknown without one. -/
theorem witness_HeadroomRule :
    (life .heating 0).bus.posts[9].sent = some 0 ∧ State.reset.bus.posts[9].sent = none ∧
      [rowDone false false].find? (fun e => e.row.post = 9) = some (rowDone false false) ∧
      (∀ e ∈ [rowDone false false], e.row.post ≠ 8) := by decide

/-- O54: the candidates of 08 section 9.5 meet the premise, and one of each interface has a grant. -/
theorem witness_AllocationBounds :
    (∀ a ∈ candidates, a.nonCandidate = false → 0 < a.floor ∧ a.floor ≤ a.request ∧ a.request ≤ a.pmaxEff ∧
      (a.heater = .continuous → a.lowest % 100 = 0 ∧ a.request % 100 = 0)) ∧
      (∀ a ∈ candidates, a.heater = .stepped → a.half ≤ a.pmaxEff) ∧
      ((allocate 16000 5000 candidates).1.map (fun x => (x.1.heater, x.2))) =
        [(.continuous, 4000), (.stepped, 3000), (.switched, 0), (.continuous, 2000), (.continuous, 1700)] := by decide

/-- O55: the least class and feed limit, and a raw request just above 0. -/
theorem witness_DeliverableLevels :
    500 ≤ { params3 with pmax := 500 }.pmax ∧ 1000 ≤ (1000 : Nat) ∧ 0 < (1 : Nat) := by decide

/-- A row due in 46 minutes whose cabin reading is stale and whose outside is warmer than its target. -/
def rowWarm : Row :=
  { rowLife .continuous 80 .waiting with
    departure := 1700, age := 3, report := { vehicle := 4117, cabin := some 80, outside := some 300 } }

/-- O56: nothing to lift; a heater that cannot outrun the loss and one that can; a row holding; one not eligible; one
eligible with 5 minutes or less left after the margin, and one with a minute more; one eligible, not holding, with nothing
to lift. -/
theorem witness_EstimateStages :
    0 < params3.h ∧ ((rowLife .continuous 210 .waiting).estimate 1694 15 (-200)).liftEnergy = 0 ∧
      (0 < (rowCold.estimate 1694 15 (-200)).liftEnergy ∧ 1500 ≤ (rowCold.estimate 1694 15 (-200)).lossPower) ∧
      (0 < ((rowLife .continuous (-180) .waiting).estimate 1694 15 (-200)).liftEnergy ∧
        ((rowLife .continuous (-180) .waiting).estimate 1694 15 (-200)).lossPower < 6250) ∧
      (rowLife .continuous 210 .waiting).holding = true ∧ (rowLife .continuous (-180) .waiting).holding = false ∧
      (rowLife .continuous (-180) .waiting).eligible 1691 15 (-200) = false ∧
      (rowLife .continuous (-180) .waiting).eligible 1735 15 (-200) = true ∧ aheadMinutes 1735 1740 ≤ params3.m ∧
      ((1 : Nat) : Int) = aheadMinutes 1734 1740 - params3.m ∧
      (rowLife .continuous (-180) .waiting).eligible 1734 15 (-200) = true ∧
      (rowWarm.holding = false ∧ rowWarm.eligible 1694 15 (-200) = true ∧
        (rowWarm.estimate 1694 15 (-200)).liftEnergy = 0) := by decide

/-- The worked life with a grant recorded at its post. -/
def granted : State := atNine (life .heating 1700) (fun p => { p with recorded := 3900 })

/-- O57, O58, O59: a state with an order bound and a grant recorded meets the premises, and steps. -/
theorem witness_invariants :
    granted.grantsSound ∧ granted.bus.posts[9].recorded ≠ 0 ∧ granted.sound ∧ granted.store.directorySound ∧
      granted.store.indexSound ∧ ∃ t, step granted = .next t := by
  refine ⟨?_, by decide, ?_, fun n r h => ?_, ⟨by decide, by decide⟩, ⟨_, rfl⟩⟩
  · unfold State.grantsSound
    decide +kernel
  · unfold State.sound Clock.sound SiteSettings.sound Supply.sound Link.sound supervisionTimeSound ClassEntry.sound
      Bus.levelSound
    refine ⟨by decide, by decide, by decide, by decide, by decide, fun n => ?_, by decide⟩
    unfold Post.sound Post.valuesSound powerSound Report.sound PendingReport.sound readingSound
    revert n
    decide +kernel
  · exact (show ∀ n : Fin 64, ∀ r ∈ granted.store.slots[n].record, (granted.store.dir n).state = some r.order.state ∧
      (granted.store.dir n).vehicle = some r.order.vehicle ∧ (granted.store.dir n).boundPost = r.order.boundPost by
      decide +kernel) n r h

end Sys2Proof.Tests
end

/-! The ahead and behind reading of depot time (03 section 4.3). -/

namespace Sys2Proof.Machine

/-- The upper rows of R52's table: a distance forward within the limit is itself the reading. -/
theorem aheadMinutes_of_le {now t : Nat} (h : ((t : Int) - now) % 10080 ≤ 8640) :
    aheadMinutes now t = ((t : Int) - now) % 10080 :=
  if_pos h

/-- The last row of R52's table: a distance forward past the limit reads a whole week back. -/
theorem aheadMinutes_of_lt {now t : Nat} (h : 8640 < ((t : Int) - now) % 10080) :
    aheadMinutes now t = ((t : Int) - now) % 10080 - 10080 :=
  if_neg h.not_ge

theorem aheadMinutes_mem_range (now t : Nat) : -1439 ≤ aheadMinutes now t ∧ aheadMinutes now t ≤ 8640 := by
  rcases le_or_gt (((t : Int) - now) % 10080) 8640 with h | h
  · rw [aheadMinutes_of_le h]; omega
  · rw [aheadMinutes_of_lt h]; omega

theorem aheadMinutes_emod (now t : Nat) : aheadMinutes now t % 10080 = ((t : Int) - now) % 10080 := by
  rcases le_or_gt (((t : Int) - now) % 10080) 8640 with h | h
  · rw [aheadMinutes_of_le h, Int.emod_emod]
  · rw [aheadMinutes_of_lt h, Int.sub_emod_right, Int.emod_emod]

theorem now_add_aheadMinutes_emod (now t : Nat) (ht : t < 10080) : ((now : Int) + aheadMinutes now t) % 10080 = t := by
  have hmod := aheadMinutes_emod now t
  omega

/-- The range of the readings is one week long, so two numbers in it that lead from now to the same minute are equal. -/
theorem eq_of_leads_to_same {now a b : Int} (ha : -1439 ≤ a ∧ a ≤ 8640) (hb : -1439 ≤ b ∧ b ≤ 8640)
    (h : (now + a) % 10080 = (now + b) % 10080) : a = b := by
  omega

theorem isBehind_iff (now t : Nat) : isBehind now t = true ↔ 8641 ≤ ((t : Int) - now) % 10080 := by
  have hneg : isBehind now t = true ↔ aheadMinutes now t < 0 := decide_eq_true_iff
  rw [hneg]
  rcases le_or_gt (((t : Int) - now) % 10080) 8640 with h | h
  · rw [aheadMinutes_of_le h]; omega
  · rw [aheadMinutes_of_lt h]; omega

/-- Settles O6: the reading lies in the range and leads from now to the stored minute, and no other number in the range
does. -/
theorem aheadReading : Obligations.AheadReading := by
  intro now t a _ ht
  have hrange := aheadMinutes_mem_range now t
  have hleads := now_add_aheadMinutes_emod now t ht
  refine ⟨⟨?_, ?_⟩, isBehind_iff now t⟩
  · rintro rfl
    exact ⟨hrange.1, hrange.2, hleads⟩
  · rintro ⟨hlow, hhigh, ha⟩
    exact eq_of_leads_to_same hrange ⟨hlow, hhigh⟩ (hleads.trans ha.symm)

end Sys2Proof.Machine

/-! The frames of the post bus (12 section 13.4; 04 section 5.5): what an exchange sends and which bytes are a REPORT. -/

namespace Sys2Proof.Machine

/-! ### The frames an exchange sends (R182) -/

theorem Exchange.frame_of_poll {x : Exchange} (h : x.level = none) :
    x.frame = [0xC3, byte x.post, 0x01, crc8 [byte x.post, 0x01]] := by
  unfold Exchange.frame
  rw [h]
  rfl

theorem Exchange.frame_of_setpoint {x : Exchange} {l : Nat} (h : x.level = some l) :
    x.frame = [0xC3, byte x.post, 0x02, byte l, crc8 [byte x.post, 0x02, byte l]] := by
  unfold Exchange.frame
  rw [h]
  rfl

/-! ### The fields of a REPORT (R71) -/

theorem heaterStateOf_eq {hs : Byte} {heater : HeaterState}
    (h : hs = 0 ∧ heater = .off ∨ hs = 1 ∧ heater = .running ∨ hs = 2 ∧ heater = .fault) :
    heaterStateOf? hs.toNat = some heater := by
  rcases h with ⟨rfl, rfl⟩ | ⟨rfl, rfl⟩ | ⟨rfl, rfl⟩ <;> rfl

theorem callOf_eq {cc : Byte} {call : CallCode}
    (h : cc = 0 ∧ call = .none ∨ cc = 1 ∧ call = .leaving ∨ cc = 2 ∧ call = .help) :
    callOf? cc.toNat = some call := by
  rcases h with ⟨rfl, rfl⟩ | ⟨rfl, rfl⟩ | ⟨rfl, rfl⟩ <;> rfl

theorem le_two_of_heaterStateOf {k : Nat} {heater : HeaterState} (h : heaterStateOf? k = some heater) : k ≤ 2 := by
  by_contra hk
  rw [heaterStateOf_none hk] at h
  cases h

theorem le_two_of_callOf {k : Nat} {call : CallCode} (h : callOf? k = some call) : k ≤ 2 := by
  by_contra hk
  rw [callOf_none hk] at h
  cases h

theorem u16_eq (hi lo : Byte) : u16 hi lo = 256 * hi.toNat + lo.toNat := by
  rw [u16, Nat.mul_comm]

/-- The vehicle number read as 0 is the one whose two bytes are both at their highest. -/
theorem u16_eq_max_iff (hi lo : Byte) : u16 hi lo = 65535 ↔ hi = 255 ∧ lo = 255 := by
  rw [u16_eq]
  bv_omega

theorem reading_eq (present : Bool) (hi lo : Byte) :
    reading present hi lo = if present then some (min 600 (max (-500) (hi ++ lo).toInt)) else none := by
  rw [reading, clampInt, s16_eq_toInt]

/-! ### The bytes that are a REPORT (R182, R183) -/

/-- Sixteen bytes read as a REPORT exactly when they pass the tests of R183 and their two codes have a meaning. -/
theorem parseReport_eq_some_iff {n : Fin 24} {st ad kd v1 v0 pr c1 c0 o1 o0 hs e1 e0 cc al ck : Byte}
    {r : ReportFields} :
    parseReport n [st, ad, kd, v1, v0, pr, c1, c0, o1, o0, hs, e1, e0, cc, al, ck] = some r ↔
      (st = 0xC3 ∧ ck = crc8 [ad, kd, v1, v0, pr, c1, c0, o1, o0, hs, e1, e0, cc, al] ∧ ad = byte n ∧ kd = 0x81) ∧
        ∃ heater call, heaterStateOf? hs.toNat = some heater ∧ callOf? cc.toNat = some call ∧
          r = { vehicle := if u16 v1 v0 = 65535 then 0 else u16 v1 v0
                cabin := reading (pr.getLsbD 0) c1 c0
                outside := reading (pr.getLsbD 1) o1 o0
                heater := heater, energy := u16 e1 e0, call := call, applied := min al.toNat 100 } := by
  rw [parseReport]
  split
  case isTrue tests =>
    cases heaterStateOf? hs.toNat with
    | none => simp
    | some heater =>
      cases callOf? cc.toNat with
      | none => simp
      | some call => simpa [tests] using eq_comm
  case isFalse failed => exact ⟨(nomatch ·), fun h => absurd h.1 failed⟩

theorem parseReport_of_length {n : Fin 24} {bytes : List Byte} (h : bytes.length ≠ 16) : parseReport n bytes = none := by
  unfold parseReport
  split
  · exact absurd rfl h
  · rfl

/-- Settles O47: the two frames an exchange sends are read off its level, and the REPORTs are the sixteen bytes that
`parseReport_eq_some_iff` describes. -/
theorem reportFrame : Obligations.ReportFrame := by
  refine ⟨fun n st ad kd v1 v0 pr c1 c0 o1 o0 hs e1 e0 cc al ck bytes hbytes => ?_,
    fun x => ⟨Exchange.frame_of_poll, fun _ => Exchange.frame_of_setpoint⟩⟩
  subst hbytes
  refine ⟨fun bad => ?rejected, fun start addressed kind check heater call hheater hcall => ?accepted,
    fun _ => parseReport_of_length⟩
  case rejected =>
    rw [Option.eq_none_iff_forall_ne_some]
    intro r hr
    obtain ⟨⟨start, check, addressed, kind⟩, heater, call, hheater, hcall, -⟩ := parseReport_eq_some_iff.mp hr
    exact bad ⟨start, (eq_byte_post ad n).mp addressed, kind, le_two_of_heaterStateOf hheater, le_two_of_callOf hcall,
      check⟩
  case accepted =>
    refine parseReport_eq_some_iff.mpr ⟨⟨start, check, (eq_byte_post ad n).mpr addressed, kind⟩, heater, call,
      heaterStateOf_eq hheater, callOf_eq hcall, ?_⟩
    simp only [u16_eq_max_iff, reading_eq, Nat.min_comm]
    simp only [u16_eq]

end Sys2Proof.Machine

/-! The invariants, post by post (04 sections 5.1 to 5.6; R81): what each operation on a post record keeps. -/

namespace Sys2Proof.Machine

/-- R81 at one post: its recorded grant is zero unless the post may carry one under the site mode. -/
def Post.grantSound (p : Post) (mode : SiteMode) : Prop :=
  p.recorded ≠ 0 → p.inService = true ∧ p.state = .bound ∧ p.silent = false ∧ mode ≠ .shed

/-! ### The ranges of a post record -/

theorem powerSound_zero : powerSound 0 := ⟨by omega, rfl⟩

theorem reportNone_sound : Report.none.sound := ⟨by decide, nofun, nofun⟩

theorem pendingNone_sound : PendingReport.none.sound := ⟨nofun, nofun, nofun⟩

theorem Post.init_sound : Post.init.sound :=
  ⟨by decide, by decide, by decide, by decide, by decide, powerSound_zero, nofun, nofun, reportNone_sound,
    pendingNone_sound⟩

theorem setRecorded_sound {p : Post} {w : Nat} (h : p.sound) (hw : powerSound w) : (p.setRecorded w).sound := by
  obtain ⟨hstate, hage, hsilence, hcond, hfeed, -, hvalues⟩ := h
  exact ⟨hstate, hage, hsilence, hcond, hfeed, hw, hvalues⟩

theorem enterShed_sound {p : Post} (h : p.sound) : p.enterShed.sound :=
  setRecorded_sound (p := p) (w := 0) h powerSound_zero

theorem roundMark_sound {p : Post} (h : p.sound) : Post.sound { p with roundMark := true } := h

theorem noBaseline_sound {p : Post} (h : p.sound) : Post.sound { p with baseline := none } := by
  obtain ⟨hstate, hage, hsilence, hcond, hfeed, hrec, hsent, -, hreports⟩ := h
  exact ⟨hstate, hage, hsilence, hcond, hfeed, hrec, hsent, nofun, hreports⟩

theorem Report.forgetVehicle_sound {r : Report} (h : r.sound) :
    Report.sound { r with vehicle := 0, cabin := Option.none } :=
  ⟨Nat.zero_le _, nofun, h.2.2⟩

theorem plugIn_sound {p : Post} (h : p.sound) (hin : p.inService = true) : p.plugIn.sound := by
  obtain ⟨-, -, hsilence, -, hfeed, hrec, hsent, -, hcurrent, -⟩ := h
  exact ⟨by simp [Post.plugIn, hin], Nat.zero_le _, hsilence, fun _ => rfl, hfeed, hrec, hsent, nofun,
    Report.forgetVehicle_sound hcurrent, pendingNone_sound⟩

theorem plugOut_sound {p : Post} (h : p.sound) (hin : p.inService = true) : p.plugOut.sound := by
  obtain ⟨-, hage, hsilence, -, hfeed, -, hsent, -, hcurrent, -⟩ := h
  exact ⟨by simp [Post.plugOut, Post.setRecorded, hin], hage, hsilence, by simp [Post.plugOut], hfeed, powerSound_zero,
    hsent, nofun, Report.forgetVehicle_sound hcurrent, pendingNone_sound⟩

theorem serviceOut_sound {p : Post} (h : p.sound) : p.serviceOut.sound := by
  obtain ⟨-, -, -, -, hfeed, -, hsent, -⟩ := h
  exact ⟨by simp [Post.serviceOut], Nat.zero_le _, Nat.zero_le _, by simp [Post.serviceOut], hfeed, powerSound_zero, hsent, nofun,
    reportNone_sound, pendingNone_sound⟩

/-- A post that was OUT has no binding condition, so the EMPTY post it becomes has none. -/
theorem serviceIn_sound {p : Post} (h : p.sound) (hout : p.inService = false) : p.serviceIn.sound := by
  obtain ⟨hstate, -, -, hcond, hfeed, hrec, -, hbase, hreports⟩ := h
  have hnone : p.condition = .none := by
    by_contra hc
    exact absurd (hcond hc) (by simp [hstate.mpr hout])
  exact ⟨by simp [Post.serviceIn], Nat.zero_le _, Nat.zero_le _, by simp [Post.serviceIn, hnone], hfeed, hrec, nofun, hbase,
    hreports⟩

theorem unbound_sound {p : Post} (h : p.sound) : p.unbound.sound := by
  obtain ⟨hstate, hage, hsilence, hcond, hfeed, -, hsent, -, hreports⟩ := h
  refine ⟨?_, hage, hsilence, ?_, hfeed, powerSound_zero, hsent, nofun, hreports⟩
  · show (if p.state = .bound then PostState.occupied else p.state) = .out ↔ p.inService = false
    by_cases hb : p.state = .bound <;> simp [hb, ← hstate]
  · intro hc
    show (if p.state = .bound then PostState.occupied else p.state) = .occupied
    by_cases hb : p.state = .bound <;> simp [hb, hcond hc]

theorem bound_sound {p : Post} (h : p.sound) (hocc : p.state = .occupied) : p.bound.sound := by
  obtain ⟨hstate, hage, hsilence, -, hfeed, hrec, hsent, -, hreports⟩ := h
  exact ⟨by simp [Post.bound, ← hstate, hocc], hage, hsilence, by simp [Post.bound], hfeed, hrec, hsent, nofun, hreports⟩

theorem setCondition_sound {p : Post} (c : Condition) (h : p.sound) : (p.setCondition c).sound := by
  unfold Post.setCondition
  split
  case isTrue hocc =>
    obtain ⟨hstate, hage, hsilence, -, hrest⟩ := h
    exact ⟨hstate, hage, hsilence, fun _ => hocc, hrest⟩
  case isFalse => exact h

theorem visited_sound {p : Post} (setpoint : Bool) (h : p.sound) : (p.visited setpoint).sound := by
  unfold Post.visited
  split <;> exact h

theorem restart_sound {p : Post} (h : p.sound) : p.restart.sound := by
  obtain ⟨-, -, -, -, hfeed, -⟩ := h
  refine ⟨?_, Nat.zero_le _, Nat.zero_le _, nofun, hfeed, powerSound_zero, nofun, nofun, reportNone_sound, pendingNone_sound⟩
  show (if p.inService then PostState.empty else .out) = .out ↔ p.inService = false
  cases p.inService <;> decide

theorem feedStored_range (w : Nat) : 1000 ≤ feedStored w ∧ feedStored w ≤ 10000 ∧ feedStored w % 100 = 0 := by
  unfold feedStored floor100 clampNat
  omega

theorem configure_sound {p : Post} (f : SetPostFields) (h : p.sound) : (p.configure f).sound := by
  obtain ⟨hstate, hage, hsilence, hcond, hfeed, hvalues⟩ := h
  refine ⟨hstate, hage, hsilence, hcond, ?_, hvalues⟩
  show 1000 ≤ (f.feedLimit?.map feedStored).getD p.feedLimit ∧ _
  cases hf : f.feedLimit? with
  | none => simpa [Post.configure, hf] using hfeed
  | some w => simpa [Post.configure, hf] using feedStored_range w

/-! ### Reports (R71, R72, R80) -/

/-- What a REPORT brings lies in the ranges of R71. -/
def ReportFields.sound (r : ReportFields) : Prop :=
  r.vehicle ≤ 65534 ∧ (∀ t ∈ r.cabin, readingSound t) ∧ (∀ t ∈ r.outside, readingSound t) ∧ r.energy ≤ 65535 ∧
    r.applied ≤ 100

theorem reading_sound (present : Bool) (hi lo : Byte) : ∀ t ∈ reading present hi lo, readingSound t := by
  unfold reading clampInt readingSound
  cases present <;> simp

theorem u16_le (hi lo : Byte) : u16 hi lo ≤ 65535 := by
  have := hi.isLt
  have := lo.isLt
  unfold u16
  omega

theorem parseReport_sound {n : Fin 24} {bytes : List Byte} {r : ReportFields} (h : parseReport n bytes = some r) :
    r.sound := by
  have hlen : bytes.length = 16 := by
    by_contra hne
    rw [parseReport_of_length hne] at h
    cases h
  match bytes, hlen with
  | [st, ad, kd, v1, v0, pr, c1, c0, o1, o0, hs, e1, e0, cc, al, ck], _ =>
    obtain ⟨-, heater, call, -, -, rfl⟩ := parseReport_eq_some_iff.mp h
    have hv := u16_le v1 v0
    refine ⟨?_, reading_sound _ _ _, reading_sound _ _ _, u16_le _ _, Nat.min_le_right _ _⟩
    show (if u16 v1 v0 = 65535 then 0 else u16 v1 v0) ≤ 65534
    split <;> omega

theorem Report.take_sound {c : Report} {v : Nat} {cabin outside : Option Int} (h : c.sound) (hv : v ≤ 65534)
    (hc : ∀ t ∈ cabin, readingSound t) (ho : ∀ t ∈ outside, readingSound t) : (c.take v cabin outside).sound := by
  obtain ⟨hv', hc', -⟩ := h
  refine ⟨?_, ?_, ho⟩
  · show (if v = 0 then c.vehicle else v) ≤ 65534
    split <;> assumption
  · show ∀ t ∈ cabin.orElse (fun _ => c.cabin), readingSound t
    cases cabin <;> assumption

theorem PendingReport.take_sound {c : PendingReport} {v : Nat} {cabin outside : Option Int} (h : c.sound)
    (hv : v ≤ 65534) (hc : ∀ t ∈ cabin, readingSound t) (ho : ∀ t ∈ outside, readingSound t) :
    (c.take v cabin outside).sound := by
  obtain ⟨hv', hc', -⟩ := h
  refine ⟨?_, ?_, ?_⟩
  · show ∀ w ∈ (if v = 0 then c.vehicle else some v), w ≤ 65534
    split
    · exact hv'
    · simpa using hv
  · show ∀ t ∈ cabin.orElse (fun _ => c.cabin), readingSound t
    cases cabin <;> assumption
  · show ∀ o ∈ some outside, ∀ t ∈ o, readingSound t
    simpa using ho

theorem takeReport_sound {p : Post} {v : Nat} {cabin outside : Option Int} (h : p.sound) (hv : v ≤ 65534)
    (hc : ∀ t ∈ cabin, readingSound t) (ho : ∀ t ∈ outside, readingSound t) : (p.takeReport v cabin outside).sound := by
  obtain ⟨hstate, hage, hsilence, hcond, hfeed, hrec, hsent, hbase, hcurrent, hheld⟩ := h
  unfold Post.takeReport
  split
  · exact ⟨hstate, hage, hsilence, hcond, hfeed, hrec, hsent, hbase, hcurrent, PendingReport.take_sound hheld hv hc ho⟩
  · exact ⟨hstate, hage, hsilence, hcond, hfeed, hrec, hsent, hbase, Report.take_sound hcurrent hv hc ho, hheld⟩

theorem Report.merge_sound {c : Report} {held : PendingReport} (h : c.sound) (hh : held.sound) :
    (c.merge held).sound := by
  obtain ⟨hv, hc, ho⟩ := h
  obtain ⟨hv', hc', ho'⟩ := hh
  refine ⟨?_, ?_, ?_⟩
  · show held.vehicle.getD c.vehicle ≤ 65534
    cases hw : held.vehicle with
    | none => exact hv
    | some w => exact hv' w hw
  · show ∀ t ∈ (if held.cabin.isSome then held.cabin else c.cabin), readingSound t
    split <;> assumption
  · show ∀ t ∈ held.outside.getD c.outside, readingSound t
    cases hw : held.outside with
    | none => exact ho
    | some w => exact ho' w hw

theorem released_sound {p : Post} (h : p.sound) : p.released.sound := by
  obtain ⟨hstate, hage, hsilence, hcond, hfeed, hrec, hsent, hbase, hcurrent, hheld⟩ := h
  exact ⟨hstate, hage, hsilence, hcond, hfeed, hrec, hsent, hbase, Report.merge_sound hcurrent hheld, pendingNone_sound⟩

/-! ### Exchanges (R73 to R78) -/

theorem withSent_sound {p : Post} {level sent : Option Nat} (h : p.sound) (hs : ∀ w ∈ sent, powerSound w) :
    (p.withSent level sent).sound := by
  obtain ⟨hstate, hage, hsilence, hcond, hfeed, hrec, -, hrest⟩ := h
  exact ⟨hstate, hage, hsilence, hcond, hfeed, hrec, hs, hrest⟩

theorem powerSound_of_level {l : Nat} (h : l ≤ 100) : powerSound (l * 100) := ⟨by omega, by omega⟩

theorem sentAnswered_sound {p : Post} {level : Option Nat} {applied : Nat} (h : p.sound) (ha : applied ≤ 100) :
    (p.sentAnswered level applied).sound := by
  unfold Post.sentAnswered
  split
  · exact withSent_sound h (by simpa using powerSound_of_level ha)
  · exact h

theorem sentUnanswered_sound {p : Post} {level : Option Nat} (h : p.sound) (hl : ∀ l ∈ level, l ≤ 100) :
    (p.sentUnanswered level).sound := by
  unfold Post.sentUnanswered
  split
  case isTrue =>
    refine withSent_sound h ?_
    obtain ⟨-, -, -, -, -, -, hsent, -⟩ := h
    intro w hw
    obtain ⟨w', hw', rfl⟩ := Option.mem_map.mp hw
    have hlevel : level.getD 0 ≤ 100 := by
      cases level with
      | none => simp
      | some l => exact hl l rfl
    rcases max_choice w' (level.getD 0 * 100) with hmax | hmax
    · rw [hmax]; exact hsent w' hw'
    · rw [hmax]; exact powerSound_of_level hlevel
  case isFalse => exact h

theorem ageAfter_le (age : Nat) (cabin : Option Int) : ageAfter age cabin ≤ 3 := by
  unfold ageAfter
  split
  · omega
  · exact Nat.min_le_left _ _

theorem carriedVehicle_le {x : Exchange} {p : Post} {r : ReportFields} (h : r.sound) :
    carriedVehicle x p r ≤ 65534 := by
  unfold carriedVehicle
  split
  · exact h.1
  · omega

theorem carriedCabin_sound {x : Exchange} {p : Post} {r : ReportFields} (h : r.sound) :
    ∀ t ∈ carriedCabin x p r, readingSound t := by
  unfold carriedCabin
  split
  · exact h.2.1
  · nofun

theorem answered_sound {p : Post} {x : Exchange} {r : ReportFields} (h : p.sound) (hr : r.sound) :
    (p.answered x r).sound := by
  have htaken : ((p.sentAnswered x.level r.applied).takeReport (carriedVehicle x p r) (carriedCabin x p r)
      r.outside).sound :=
    takeReport_sound (sentAnswered_sound h hr.2.2.2.2) (carriedVehicle_le hr) (carriedCabin_sound hr) hr.2.2.1
  obtain ⟨-, -, -, -, -, -, -, hbase0, -⟩ := h
  generalize hq : (p.sentAnswered x.level r.applied).takeReport (carriedVehicle x p r) (carriedCabin x p r)
    r.outside = q at htaken
  obtain ⟨hstate, -, -, hcond, hfeed, hrec, hsent, -, hreports⟩ := htaken
  have hbase : ∀ e ∈ (if p.state = .bound then some r.energy else p.baseline), e ≤ 65535 := by
    split
    · simpa using hr.2.2.2.1
    · exact hbase0
  unfold Post.answered
  dsimp only
  rw [hq]
  split
  · exact setRecorded_sound ⟨hstate, ageAfter_le _ _, Nat.zero_le _, hcond, hfeed, hrec, hsent, hbase, hreports⟩ powerSound_zero
  · exact ⟨hstate, ageAfter_le _ _, Nat.zero_le _, hcond, hfeed, hrec, hsent, hbase, hreports⟩

theorem answeredOut_sound {p : Post} {x : Exchange} {r : ReportFields} (h : p.sound) (hr : r.sound) :
    (p.answeredOut x r).sound :=
  sentAnswered_sound (level := x.level) h hr.2.2.2.2

theorem unanswered_sound {p : Post} {x : Exchange} (h : p.sound) (hl : ∀ l ∈ x.level, l ≤ 100) :
    (p.unanswered x).sound := by
  have hsent := sentUnanswered_sound h hl
  generalize hq : p.sentUnanswered x.level = q at hsent
  obtain ⟨hstate, -, -, hcond, hrest⟩ := hsent
  unfold Post.unanswered
  dsimp only
  rw [hq]
  split
  · exact setRecorded_sound ⟨hstate, ageAfter_le p.age none, Nat.min_le_left _ _, hcond, hrest⟩ powerSound_zero
  · exact ⟨hstate, ageAfter_le p.age none, Nat.min_le_left _ _, hcond, hrest⟩

/-! ### The recorded grant (R81) -/

theorem grantSound_of_zero {p : Post} {mode : SiteMode} (h : p.recorded = 0) : p.grantSound mode :=
  fun hne => absurd h hne

/-- A post that is not BOUND, or not in service, carries no grant. -/
theorem Post.grantSound.recorded_zero {p : Post} {mode : SiteMode} (h : p.grantSound mode)
    (hp : p.inService = false ∨ p.state ≠ .bound) : p.recorded = 0 := by
  by_contra hne
  obtain ⟨hin, hbound, -⟩ := h hne
  rcases hp with hout | hstate
  · simp [hin] at hout
  · exact hstate hbound

/-- A change that leaves grant, service and state as they are, and raises no SILENT, keeps R81. -/
theorem Post.grantSound.of_same {p q : Post} {mode : SiteMode} (h : p.grantSound mode)
    (hrec : q.recorded = p.recorded) (hin : q.inService = p.inService) (hstate : q.state = p.state)
    (hsilent : p.silent = false → q.silent = false) : q.grantSound mode := by
  intro hne
  obtain ⟨hin', hstate', hsilent', hmode⟩ := h (hrec ▸ hne)
  exact ⟨hin.trans hin', hstate.trans hstate', hsilent hsilent', hmode⟩

theorem setCondition_grantSound {p : Post} {mode : SiteMode} (c : Condition) (h : p.grantSound mode) :
    (p.setCondition c).grantSound mode := by
  unfold Post.setCondition
  split <;> exact h

theorem visited_grantSound {p : Post} {mode : SiteMode} (setpoint : Bool) (h : p.grantSound mode) :
    (p.visited setpoint).grantSound mode := by
  unfold Post.visited
  split <;> exact h

theorem sentAnswered_grantSound {p : Post} {mode : SiteMode} (level : Option Nat) (applied : Nat)
    (h : p.grantSound mode) : (p.sentAnswered level applied).grantSound mode := by
  unfold Post.sentAnswered
  split <;> exact h

theorem sentUnanswered_grantSound {p : Post} {mode : SiteMode} (level : Option Nat) (h : p.grantSound mode) :
    (p.sentUnanswered level).grantSound mode := by
  unfold Post.sentUnanswered
  split <;> exact h

theorem takeReport_grantSound {p : Post} {mode : SiteMode} (v : Nat) (cabin outside : Option Int)
    (h : p.grantSound mode) : (p.takeReport v cabin outside).grantSound mode := by
  unfold Post.takeReport
  split <;> exact h

theorem answered_grantSound {p : Post} {mode : SiteMode} (x : Exchange) (r : ReportFields) (h : p.grantSound mode) :
    (p.answered x r).grantSound mode := by
  have htaken := takeReport_grantSound (carriedVehicle x p r) (carriedCabin x p r) r.outside
    (sentAnswered_grantSound x.level r.applied h)
  unfold Post.answered
  dsimp only
  split
  · exact grantSound_of_zero rfl
  · exact htaken.of_same rfl rfl rfl fun _ => rfl

/-- A post that becomes SILENT loses its grant. -/
theorem unanswered_grantSound {p : Post} {mode : SiteMode} (x : Exchange) (h : p.grantSound mode) :
    (p.unanswered x).grantSound mode := by
  have hsent := sentUnanswered_grantSound x.level h
  have hquiet : p.silent = (p.sentUnanswered x.level).silent := by
    unfold Post.sentUnanswered
    split <;> rfl
  unfold Post.unanswered
  dsimp only
  split
  case isTrue => exact grantSound_of_zero rfl
  case isFalse hnot =>
    refine hsent.of_same rfl rfl rfl fun hq => ?_
    show (p.silent || decide (p.silence = 3)) = false
    rw [hquiet, hq]
    simpa using fun h3 => hnot (.inl h3)

/-- A recorded grant above zero under every mode but SHED, of a post that may carry it. -/
theorem setRecorded_grantSound {p : Post} {mode : SiteMode} {w : Nat}
    (h : w = 0 ∨ p.inService = true ∧ p.state = .bound ∧ p.silent = false ∧ mode ≠ .shed) :
    (p.setRecorded w).grantSound mode := by
  rcases h with rfl | h
  · exact grantSound_of_zero rfl
  · exact fun _ => h

end Sys2Proof.Machine

/-! The invariants, block by block: what each operation on the order store, the post bus engine, the class table and the
supply monitor keeps. -/

namespace Sys2Proof.Machine

/-! ### The order store (R28, R31, R32) -/

/-- Directory and vehicle index are sound. -/
def Store.sound (st : Store) : Prop := st.directorySound ∧ st.indexSound

/-- A slot's directory entry carries the copies of its record (R28). -/
def Slot.sound (x : Slot) : Prop :=
  ∀ r : Stored, x.record = some r →
    x.dir.state = some r.order.state ∧ x.dir.vehicle = some r.order.vehicle ∧ x.dir.boundPost = r.order.boundPost

theorem Slot.sound_of_none {x : Slot} (h : x.record = none) : x.sound := by
  intro r hr
  rw [h] at hr
  cases hr

theorem directorySound_iff (st : Store) : st.directorySound ↔ ∀ n : Fin 64, st.slots[n].sound := Iff.rfl

/-- A vector whose entry is replaced by a good one has good entries. -/
theorem forall_vector_set {α : Type} {k : Nat} {P : α → Prop} {v : Vector α k} {n : Fin k} {x : α}
    (h : ∀ m : Fin k, P v[m]) (hx : P x) (m : Fin k) : P (v.set n x)[m] := by
  by_cases hm : m = n
  · subst hm
    rw [vector_set_eq]
    exact hx
  · rw [vector_set_ne _ _ _ _ hm]
    exact h m

theorem Store.sound.set {st : Store} (h : st.sound) {n : Fin 64} {x : Slot} (hx : x.sound) :
    Store.sound { st with slots := st.slots.set n x } :=
  ⟨(directorySound_iff _).mpr (forall_vector_set ((directorySound_iff st).mp h.1) hx), h.2⟩

theorem Store.sound.writeOrder {st : Store} (h : st.sound) (n : Fin 64) (o : Order) : (st.writeOrder n o).sound :=
  h.set (by rintro r ⟨⟩; exact ⟨rfl, rfl, rfl⟩)

theorem Store.sound.setOccupancy {st : Store} (h : st.sound) (n : Fin 64) (x : Occupancy) :
    (st.setOccupancy n x).sound :=
  h.set ((directorySound_iff st).mp h.1 n)

theorem Store.sound.setTable {st : Store} (h : st.sound) (p : Fin 24) (e : Option Handle) : (st.setTable p e).sound := h

theorem Store.sound.clearTable {st : Store} (h : st.sound) (p : Option (Fin 24)) : (st.clearTable p).sound := by
  cases p <;> exact h

theorem Store.sound.free {st : Store} (h : st.sound) (n : Fin 64) : (st.free n).sound :=
  h.set (Slot.sound_of_none rfl)

theorem Store.sound.markDamaged {st : Store} (h : st.sound) (n : Fin 64) : (st.markDamaged n).sound :=
  h.set (Slot.sound_of_none rfl)

theorem Store.sound.indexInsert {st : Store} (h : st.sound) (now v : Nat) (e : IndexEntry) :
    (st.indexInsert now v e).sound :=
  ⟨h.1, indexSound_setVehicleList h.2 _ _⟩

theorem Store.sound.indexRemove {st : Store} (h : st.sound) (v : Nat) (k : Handle) : (st.indexRemove v k).sound :=
  ⟨h.1, indexSound_setVehicleList h.2 _ _⟩

theorem Store.sound.close {st : Store} (h : st.sound) (k : Handle) (o : Order) (x : OrderOutcome) (minute : Nat) :
    (st.close k o x minute).sound :=
  (((h.writeOrder _ _).setOccupancy _ _).clearTable _).indexRemove _ _

theorem Store.sound.damage {st : Store} (h : st.sound) (k : Handle) : (st.damage k).sound :=
  ((h.set (Slot.sound_of_none rfl)).clearTable _).indexRemove _ _

theorem Store.sound.create {st : Store} (h : st.sound) (now : Nat) (n : Fin 64) (o : Order) :
    (st.create now n o).sound :=
  ((h.writeOrder _ _).setOccupancy _ _).indexInsert _ _ _

theorem Store.sound.amend {st : Store} (h : st.sound) (now : Nat) (k : Handle) (o : Order) (f : AmendFields) :
    (st.amend now k o f).sound := by
  unfold Store.amend
  dsimp only
  split
  · exact ((h.writeOrder _ _).indexRemove _ _).indexInsert _ _ _
  · exact h.writeOrder _ _

theorem Store.sound_of_records_none {st : Store} (hr : ∀ n : Fin 64, st.slots[n].record = none) (hi : st.index = []) :
    st.sound := by
  refine ⟨(directorySound_iff st).mpr fun n => Slot.sound_of_none (hr n), ?_⟩
  unfold Store.indexSound
  rw [hi]
  exact ⟨List.Pairwise.nil, nofun⟩

theorem Store.init_sound : Store.init.sound :=
  Store.sound_of_records_none (fun n => by simp [Store.init]) rfl

theorem Store.restart_sound (st : Store) : st.restart.sound :=
  Store.sound_of_records_none (fun n => by simp [Store.restart]) rfl

/-! ### The class table (R98) -/

theorem classClamped_sound (f : SetClassFields) (users : List (Fin 64)) :
    ClassEntry.sound { params := some (classClamped f), users := users } := by
  rintro p ⟨⟩
  unfold classClamped clampNat floor100
  dsimp only
  omega

theorem addUser_sound {cs : Vector ClassEntry 16} (c : Fin 16) (n : Fin 64) (h : ∀ c : Fin 16, cs[c].sound) :
    ∀ k : Fin 16, (addUser cs c n)[k].sound :=
  forall_vector_set h (h c)

theorem dropUser_sound {cs : Vector ClassEntry 16} (n : Fin 64) (h : ∀ c : Fin 16, cs[c].sound) (k : Fin 16) :
    (dropUser cs n)[k].sound := by
  rw [dropUser_get]
  exact h k

/-! ### The post bus engine -/

/-- The post records and the level in flight lie in their ranges. -/
def Bus.sound (b : Bus) : Prop := (∀ n : Fin 24, b.posts[n].sound) ∧ b.levelSound

/-- R81 at every post. -/
def Bus.grantsSound (b : Bus) (mode : SiteMode) : Prop := ∀ n : Fin 24, b.posts[n].grantSound mode

/-- What an operation of the engine keeps under a site mode. -/
structure Bus.Keeps (mode : SiteMode) (b c : Bus) : Prop where
  sound : b.sound → c.sound
  grants : b.grantsSound mode → c.grantsSound mode

theorem Bus.Keeps.refl {mode : SiteMode} (b : Bus) : Bus.Keeps mode b b := ⟨id, id⟩

theorem Bus.Keeps.trans {mode : SiteMode} {b c d : Bus} (h : Bus.Keeps mode b c) (k : Bus.Keeps mode c d) :
    Bus.Keeps mode b d :=
  ⟨k.sound ∘ h.sound, k.grants ∘ h.grants⟩

/-- The queue is no part of either invariant. -/
theorem Bus.Keeps.present {mode : SiteMode} {b c : Bus} (h : Bus.Keeps mode b c) (l : List PostAccess) :
    Bus.Keeps mode b (c.present l) := h.trans ⟨id, id⟩

theorem Bus.Keeps.trigger {mode : SiteMode} {b c : Bus} (h : Bus.Keeps mode b c) (sel : Fin 24 → Bool) :
    Bus.Keeps mode b (c.trigger sel) := h.present _

theorem Bus.keeps_modify {mode : SiteMode} {b : Bus} {n : Fin 24} {f : Post → Post}
    (hs : b.levelSound → b.posts[n].sound → (f b.posts[n]).sound)
    (hg : b.posts[n].grantSound mode → (f b.posts[n]).grantSound mode) : Bus.Keeps mode b (b.modify n f) where
  sound h := ⟨forall_vector_set h.1 (hs h.2 (h.1 n)), h.2⟩
  grants h := forall_vector_set (v := b.posts) (P := (Post.grantSound · mode)) h (hg (h n))

theorem levelSound_of_exchange {b c : Bus} (hx : c.exchange = b.exchange) (h : b.levelSound) : c.levelSound := by
  unfold Bus.levelSound
  rwa [hx]

theorem mapPosts_get (b : Bus) (f : Post → Post) (n : Fin 24) : (b.mapPosts f).posts[n] = f b.posts[n] := by
  simp [Bus.mapPosts]

theorem mapPosts_exchange (b : Bus) (f : Post → Post) : (b.mapPosts f).exchange = b.exchange := by
  unfold Bus.mapPosts
  with_reducible rfl

theorem Bus.keeps_mapPosts {mode : SiteMode} {b : Bus} {f : Post → Post} (hs : ∀ p : Post, p.sound → (f p).sound)
    (hg : ∀ p : Post, p.grantSound mode → (f p).grantSound mode) : Bus.Keeps mode b (b.mapPosts f) where
  sound h := ⟨fun n => mapPosts_get b f n ▸ hs _ (h.1 n), levelSound_of_exchange (mapPosts_exchange b f) h.2⟩
  grants h n := mapPosts_get b f n ▸ hg _ (h n)

/-- A change of the exchange in flight, at a level no higher than 100, touches no post. -/
theorem Bus.keeps_exchange {mode : SiteMode} {b : Bus} {x : Option Exchange}
    (hx : b.sound → Bus.levelSound { b with exchange := x }) : Bus.Keeps mode b { b with exchange := x } where
  sound h := ⟨h.1, hx h⟩
  grants h := h

theorem levelSound_map {b : Bus} {f : Exchange → Exchange} (hf : ∀ x, (f x).level = x.level) (h : b.levelSound) :
    Bus.levelSound { b with exchange := b.exchange.map f } := by
  intro x hx l hl
  obtain ⟨y, hy, rfl⟩ := Option.mem_map.mp hx
  exact h y hy l (by rwa [hf] at hl)

theorem Bus.keeps_notePlugIn {mode : SiteMode} (b : Bus) (n : Fin 24) : Bus.Keeps mode b (b.notePlugIn n) :=
  Bus.keeps_exchange fun h => levelSound_map (fun x => by split <;> rfl) h.2

theorem Bus.keeps_runTimers {mode : SiteMode} (b : Bus) : Bus.Keeps mode b b.runTimers :=
  Bus.keeps_exchange fun h => levelSound_map (fun _ => rfl) h.2

theorem Bus.keeps_endExchange {mode : SiteMode} (b : Bus) : Bus.Keeps mode b b.endExchange :=
  Bus.keeps_exchange fun _ => nofun

/-! ### Plug, service and binding -/

theorem Bus.keeps_plugIn {mode : SiteMode} (b : Bus) (n : Fin 24) : Bus.Keeps mode b (b.plugIn n) := by
  unfold Bus.plugIn
  split
  case isTrue h =>
    obtain ⟨hin, hempty⟩ := h
    refine (Bus.keeps_modify (fun _ hs => plugIn_sound hs hin) fun hg => grantSound_of_zero ?_).trans
      (Bus.keeps_notePlugIn _ n)
    exact hg.recorded_zero (.inr (by rw [hempty]; nofun))
  case isFalse => exact .refl b

theorem Bus.keeps_plugOut {mode : SiteMode} (b : Bus) (table : Vector (Option Handle) 24) (n : Fin 24) :
    Bus.Keeps mode b (b.plugOut table n) := by
  have hout (hin : b.posts[n].inService = true) : Bus.Keeps mode b (b.modify n Post.plugOut) :=
    Bus.keeps_modify (fun _ hs => plugOut_sound hs hin) fun _ => grantSound_of_zero rfl
  unfold Bus.plugOut
  split
  case isTrue h => exact (hout h.1).present _
  case isFalse =>
    split
    case isTrue h => exact hout h.1
    case isFalse => exact .refl b

theorem Bus.keeps_serviceOut {mode : SiteMode} (b : Bus) (table : Vector (Option Handle) 24) (n : Fin 24) :
    Bus.Keeps mode b (b.serviceOut table n) :=
  (Bus.keeps_modify (fun _ hs => serviceOut_sound hs) fun _ => grantSound_of_zero rfl).present _

theorem Bus.keeps_serviceIn {mode : SiteMode} {b : Bus} {n : Fin 24} (level : Level)
    (hout : b.posts[n].inService = false) : Bus.Keeps mode b (b.serviceIn n level) := by
  have hin : Bus.Keeps mode b (b.modify n Post.serviceIn) :=
    Bus.keeps_modify (fun _ hs => serviceIn_sound hs hout) fun hg => grantSound_of_zero (hg.recorded_zero (.inl hout))
  unfold Bus.serviceIn
  split
  · exact hin.trans (Bus.keeps_plugIn _ n)
  · exact hin

theorem Bus.keeps_vehicleChange {mode : SiteMode} (b : Bus) (table : Vector (Option Handle) 24) (n : Fin 24) :
    Bus.Keeps mode b (b.vehicleChange table n) :=
  (Bus.keeps_modify (fun _ hs => noBaseline_sound (setRecorded_sound hs powerSound_zero))
    fun _ => grantSound_of_zero rfl).present _

theorem Bus.keeps_unbound {mode : SiteMode} (b : Bus) (n : Fin 24) (v : Nat) (pending : Bool) :
    Bus.Keeps mode b (b.unbound n v pending) :=
  (Bus.keeps_modify (fun _ hs => unbound_sound hs) fun _ => grantSound_of_zero rfl).trigger _

theorem Bus.keeps_orderPending {mode : SiteMode} (b : Bus) (v : Nat) : Bus.Keeps mode b (b.orderPending v) :=
  (Bus.Keeps.refl b).trigger _

theorem Bus.keeps_bindingNotice {mode : SiteMode} (b : Bus) (n : Fin 24) (k : Handle) (v : Nat) (note : BindNote) :
    Bus.Keeps mode b (b.bindingNotice n k v note) := by
  unfold Bus.bindingNotice
  split
  · exact (Bus.Keeps.refl b).present _
  split
  · exact (Bus.Keeps.refl b).present _
  split
  · exact .refl b
  case isFalse hne =>
  have hocc : b.posts[n].state = .occupied := not_not.mp hne
  have hzeroed : Bus.Keeps mode b (b.modify n fun p => p.bound.setRecorded 0) :=
    Bus.keeps_modify (fun _ hs => setRecorded_sound (bound_sound hs hocc) powerSound_zero) fun _ => grantSound_of_zero rfl
  split
  · exact hzeroed.present _
  split
  · exact hzeroed.present _
  · refine Bus.keeps_modify (fun _ hs => bound_sound hs hocc) fun hg => grantSound_of_zero ?_
    exact hg.recorded_zero (.inr (by rw [hocc]; nofun))

theorem Bus.keeps_setCondition {mode : SiteMode} (b : Bus) (n : Fin 24) (c : Condition) :
    Bus.Keeps mode b (b.modify n fun p => p.setCondition c) :=
  Bus.keeps_modify (fun _ hs => setCondition_sound c hs) fun hg => setCondition_grantSound c hg

theorem Bus.keeps_configure {mode : SiteMode} (b : Bus) (n : Fin 24) (f : SetPostFields) :
    Bus.Keeps mode b (b.modify n fun p => p.configure f) :=
  Bus.keeps_modify (fun _ hs => configure_sound f hs) id

/-! ### Rounds -/

theorem Bus.keeps_roundMark {mode : SiteMode} (b : Bus) :
    Bus.Keeps mode b (b.mapPosts fun p => { p with roundMark := true }) :=
  Bus.keeps_mapPosts (fun _ hs => roundMark_sound hs) fun _ => id

theorem Bus.keeps_foldl_vehicleChange {mode : SiteMode} (table : Vector (Option Handle) 24) (l : List (Fin 24))
    (b : Bus) : Bus.Keeps mode b (l.foldl (fun c n => c.vehicleChange table n) b) := by
  induction l generalizing b with
  | nil => exact .refl b
  | cons n rest ih => exact (Bus.keeps_vehicleChange b table n).trans (ih _)

theorem Bus.keeps_release {mode : SiteMode} (b : Bus) (table : Vector (Option Handle) 24) :
    Bus.Keeps mode b (b.release table) :=
  ((Bus.keeps_mapPosts (fun _ hs => released_sound hs) fun _ => id).trans
    (Bus.keeps_foldl_vehicleChange table _ _)).trigger _

/-! ### Exchanges -/

/-- The level sent is the recorded grant in units of 100 W. -/
theorem Bus.keeps_send {mode : SiteMode} (b : Bus) (n : Fin 24) (setpoint : Bool) :
    Bus.Keeps mode b (b.send n setpoint) := by
  have hvisited : Bus.Keeps mode b (b.modify n fun p => p.visited setpoint) :=
    Bus.keeps_modify (fun _ hs => visited_sound setpoint hs) fun hg => visited_grantSound setpoint hg
  refine ⟨fun h => ⟨(hvisited.sound h).1, ?_⟩, hvisited.grants⟩
  obtain ⟨-, -, -, -, -, hrecorded, -⟩ := h.1 n
  rintro x ⟨⟩ l hl
  cases setpoint with
  | false => cases hl
  | true =>
    cases hl
    have := hrecorded.1
    omega

theorem Bus.keeps_startExchange {mode : SiteMode} (b : Bus) : Bus.Keeps mode b b.startExchange := by
  unfold Bus.startExchange
  split
  · exact Bus.keeps_send b _ true
  · split
    · exact (Bus.keeps_send b _ _).trans ⟨id, id⟩
    · exact .refl b

theorem Bus.keeps_afterReport {mode : SiteMode} (b : Bus) (table : Vector (Option Handle) 24) (n : Fin 24)
    (change silentEnded : Bool) : Bus.Keeps mode b (b.afterReport table n change silentEnded) := by
  unfold Bus.afterReport
  split
  · exact Bus.keeps_vehicleChange b table n
  · exact (Bus.Keeps.refl b).trigger _

theorem Bus.keeps_answered {mode : SiteMode} (b : Bus) (table : Vector (Option Handle) 24) (x : Exchange)
    {r : ReportFields} (hr : r.sound) : Bus.Keeps mode b (b.answered table x r) := by
  unfold Bus.answered
  split
  · have htaken : Bus.Keeps mode b (b.modify x.post fun p => p.answered x r) :=
      Bus.keeps_modify (fun _ hs => answered_sound hs hr) fun hg => answered_grantSound x r hg
    unfold Bus.answeredIn
    dsimp only
    split
    · exact (htaken.present _).trans (Bus.keeps_afterReport _ table x.post _ _)
    · exact htaken.trans (Bus.keeps_afterReport _ table x.post _ _)
  · exact Bus.keeps_modify (fun _ hs => answeredOut_sound hs hr) fun hg => sentAnswered_grantSound _ _ hg

theorem Bus.keeps_unanswered {mode : SiteMode} {b : Bus} (table : Vector (Option Handle) 24) {x : Exchange}
    (hx : b.exchange = some x) : Bus.Keeps mode b (b.unanswered table x) := by
  unfold Bus.unanswered
  dsimp only
  split
  · exact (Bus.keeps_modify (fun hl hs => unanswered_sound hs (hl x hx)) fun hg => unanswered_grantSound x hg).present _
  · exact Bus.keeps_modify (fun hl hs => sentUnanswered_sound hs (hl x hx)) fun hg => sentUnanswered_grantSound _ hg

/-! ### Resets and SHED -/

theorem Bus.init_sound : Bus.init.sound :=
  ⟨fun n => by simpa [Bus.init] using Post.init_sound, nofun⟩

theorem Bus.init_grantsSound (mode : SiteMode) : Bus.init.grantsSound mode :=
  fun n => grantSound_of_zero (by simp [Bus.init, Post.init])

theorem Bus.restart_sound {b : Bus} (h : b.sound) : b.restart.sound :=
  ⟨fun n => by simpa [Bus.restart] using Machine.restart_sound (h.1 n), nofun⟩

theorem Bus.restart_grantsSound (b : Bus) (mode : SiteMode) : b.restart.grantsSound mode :=
  fun n => grantSound_of_zero (by simp [Bus.restart, Post.restart, Post.init])

theorem Bus.enterShed_sound {b : Bus} (table : Vector (Option Handle) 24) (h : b.sound) : (b.enterShed table).sound :=
  ⟨fun n => by rw [enterShed_post]; exact Machine.enterShed_sound (h.1 n),
    levelSound_of_exchange (enterShed_exchange b table) h.2⟩

theorem Bus.enterShed_grantsSound (b : Bus) (table : Vector (Option Handle) 24) (mode : SiteMode) :
    (b.enterShed table).grantsSound mode :=
  fun n => by rw [enterShed_post]; exact grantSound_of_zero rfl

/-! ### The supply monitor (R144, R149) -/

theorem Supply.init_sound : Supply.init.sound := ⟨by decide, by decide⟩

theorem Supply.restart_sound (x : Supply) : x.restart.sound := by
  refine ⟨Nat.zero_le _, ?_⟩
  show (none : Option Nat).isSome = true ↔ x.forced.mode = .restoring
  cases x.forced <;> decide

theorem Supply.runTimers_sound {x : Supply} (h : x.sound) : x.runTimers.sound :=
  ⟨h.1, by simpa [Supply.runTimers] using h.2⟩

theorem restoredMode_ne (x : Supply) : x.restoredMode ≠ .restoring ∧ x.restoredMode ≠ .shed := by
  unfold Supply.restoredMode
  split <;> decide

/-- The restore timer runs exactly in the mode the calls lead to when that is RESTORING. -/
theorem respond_sound {x old : Supply} (delay : Nat) (hx : x.sound) :
    (x.respond old delay).2.isSome = true ↔ (x.respond old delay).1 = .restoring := by
  unfold Supply.respond
  split
  · decide
  split
  · split
    · simpa using (restoredMode_ne x).1
    · decide
  split
  · decide
  split
  · decide
  · exact hx.2

end Sys2Proof.Machine

/-! What every event keeps, block by block; one lemma an operation, composed along the operations of a command. The site
link port has a file of its own: within an event it passes through states that no step ends in. -/

namespace Sys2Proof.Machine

/-- What an event keeps: the queue of commands, and of each block but the site link port, its invariant. -/
structure State.Keeps (s t : State) : Prop where
  pending : t.pending = s.pending := by rfl
  clock : s.clock.sound → t.clock.sound := by exact id
  site : s.site.sound → t.site.sound := by exact id
  supply : s.supply.sound → t.supply.sound := by exact id
  classes : (∀ c : Fin 16, s.classes[c].sound) → ∀ c : Fin 16, t.classes[c].sound := by exact id
  bus : s.bus.sound → t.bus.sound := by exact id
  grants : s.bus.grantsSound s.supply.mode → t.bus.grantsSound t.supply.mode := by exact id
  store : s.store.sound → t.store.sound := by exact id

theorem State.Keeps.refl (s : State) : s.Keeps s := {}

theorem State.Keeps.trans {s t u : State} (h : s.Keeps t) (k : t.Keeps u) : s.Keeps u where
  pending := k.pending.trans h.pending
  clock := k.clock ∘ h.clock
  site := k.site ∘ h.site
  supply := k.supply ∘ h.supply
  classes := k.classes ∘ h.classes
  bus := k.bus ∘ h.bus
  grants := k.grants ∘ h.grants
  store := k.store ∘ h.store

/-- The blocks of which the invariants do not speak. -/
theorem keeps_quiet (s : State) (arbiter : Arbiter) (link : Link) (plug : Vector LineFilter 24) (planner : Planner)
    (attention : Attention) :
    s.Keeps { s with arbiter := arbiter, link := link, plug := plug, planner := planner, attention := attention } := {}

theorem keeps_bus {s : State} {b : Bus} (h : Bus.Keeps s.supply.mode s.bus b) : s.Keeps { s with bus := b } :=
  { bus := h.sound, grants := h.grants }

theorem keeps_store {s : State} {st : Store} (h : s.store.sound → st.sound) : s.Keeps { s with store := st } :=
  { store := h }

theorem keeps_classes {s : State} {cs : Vector ClassEntry 16}
    (h : (∀ c : Fin 16, s.classes[c].sound) → ∀ c : Fin 16, cs[c].sound) : s.Keeps { s with classes := cs } :=
  { classes := h }

/-! ### What follows every event -/

theorem keeps_grant (s : State) (r : Requester) (a : Access) : s.Keeps (s.grant r a) := by
  unfold State.grant
  have hqueue : Bus.Keeps s.supply.mode s.bus (if r = .posts then { s.bus with queue := s.bus.queue.tail } else s.bus) := by
    split <;> exact ⟨id, id⟩
  exact (keeps_bus hqueue).trans (keeps_quiet _ _ _ _ _ _)

theorem keeps_settle (s : State) : s.Keeps s.settle := by
  unfold State.settle
  split
  · exact .refl s
  · dsimp only
    split
    · exact keeps_grant s _ _
    · exact keeps_grant s _ _
    · exact keeps_grant s _ _
    · exact .refl s

theorem keeps_startRound (s : State) : s.Keeps s.startRound := by
  unfold State.startRound
  exact (keeps_bus (Bus.keeps_roundMark s.bus)).trans (keeps_quiet _ _ _ _ _ _)

theorem keeps_startDue (s : State) : s.Keeps s.startDue := by
  unfold State.startDue
  split
  · exact keeps_startRound s
  · exact .refl s

theorem keeps_finish (s : State) : s.Keeps s.finish := (keeps_startDue s).trans (keeps_settle _)

theorem keeps_roundTimerExpires (s : State) : s.Keeps s.roundTimerExpires := by
  unfold State.roundTimerExpires
  split
  · exact keeps_quiet s _ _ _ _ _
  · exact keeps_startRound s

/-- A command is an event and what follows it. -/
theorem State.Keeps.finish {s t : State} (h : s.Keeps t) : s.Keeps t.finish := h.trans (keeps_finish t)

/-! ### Notices and closes -/

theorem keeps_noticeUnbound (s : State) (h : Handle) (v : Nat) (post : Option (Fin 24)) (pending : Bool) :
    s.Keeps (s.noticeUnbound h v post pending) := by
  unfold State.noticeUnbound
  cases post with
  | none => exact keeps_quiet s _ _ _ _ _
  | some n => exact (keeps_bus (Bus.keeps_unbound s.bus n v pending)).trans (keeps_quiet _ _ _ _ _ _)

theorem keeps_closeOrder (s : State) (h : Handle) (o : Order) (x : OrderOutcome) : s.Keeps (s.closeOrder h o x) :=
  ((keeps_store fun hs => hs.close h o x s.clock.minute).trans (keeps_classes fun hc => dropUser_sound h.slot hc)).trans
    (keeps_noticeUnbound _ _ _ _ _)

theorem keeps_returnToPending (s : State) (h : Handle) (o : Order) : s.Keeps (s.returnToPending h o) :=
  (keeps_store fun hs => (hs.writeOrder h.slot o.toPending).clearTable o.boundPost).trans (keeps_noticeUnbound _ _ _ _ _)

theorem keeps_damaged (s : State) (h : Handle) : s.Keeps (s.damaged h) := by
  unfold State.damaged
  split
  · exact ((keeps_store fun hs => hs.damage h).trans (keeps_classes fun hc => dropUser_sound h.slot hc)).trans
      (keeps_noticeUnbound _ _ _ _ _)
  · exact keeps_store fun hs => hs.markDamaged h.slot

theorem keeps_writeOrder (s : State) (h : Handle) (o : Order) : s.Keeps (s.writeOrder h o) :=
  keeps_store fun hs => hs.writeOrder h.slot o

/-! ### The site mode -/

/-- The entry into SHED zeroes every grant; every other mode leaves those that SHED had not forbidden. -/
theorem keeps_changeMode {s : State} {m : SiteMode} {restore : Option Nat}
    (h : s.supply.sound → (restore.isSome = true ↔ m = .restoring)) : s.Keeps (s.changeMode m restore) := by
  unfold State.changeMode
  split
  · exact .refl s
  · refine { supply := fun hs => ⟨hs.1, h hs⟩, bus := fun hb => ?_, grants := fun hg => ?_ }
    · dsimp only
      split
      · exact Bus.enterShed_sound s.store.table hb
      · exact hb
    · dsimp only
      split
      · exact Bus.enterShed_grantsSound _ _ _
      case isFalse hm =>
        intro n hne
        obtain ⟨hin, hbound, hsilent, -⟩ := hg n hne
        exact ⟨hin, hbound, hsilent, hm⟩

theorem keeps_judgeCalls {s : State} {x : Supply} (hm : x.mode = s.supply.mode) (hx : s.supply.sound → x.sound) :
    s.Keeps (s.judgeCalls x) := by
  have hset : s.Keeps { s with supply := x } := { supply := hx, grants := by rw [hm]; exact id }
  exact hset.trans (keeps_changeMode fun hs => respond_sound _ hs)

theorem keeps_restoreExpires (s : State) : s.Keeps s.restoreExpires := by
  unfold State.restoreExpires
  split
  · exact keeps_changeMode fun _ => by simpa using (restoredMode_ne s.supply).1
  · exact .refl s

theorem keeps_meterTransition (s : State) (edge : Edge) : s.Keeps (s.meterTransition edge) := by
  unfold State.meterTransition
  split
  · split
    case isTrue hlt => exact { supply := fun hs => ⟨hlt, hs.2⟩ }
    case isFalse => exact { supply := id }
  · exact .refl s

/-! ### Requests -/

theorem siteClamped_sound (f : SiteFields) (edge : Edge) : (siteClamped f edge).sound := by
  unfold SiteSettings.sound siteClamped clampNat clampInt
  dsimp only
  omega

theorem keeps_storeSite {s : State} {x : SiteSettings} (hx : x.sound) : s.Keeps (s.storeSite x) := by
  have hset : s.Keeps { s with site := x } := { site := fun _ => hx }
  have hrestore (t : State) (b : Bool) : t.Keeps (t.restoreIf b) := by
    unfold State.restoreIf
    split
    · exact keeps_restoreExpires t
    · exact .refl t
  have hround (t : State) (b : Bool) : t.Keeps (t.roundIf b) := by
    unfold State.roundIf
    split
    · exact keeps_roundTimerExpires t
    · exact .refl t
  have hreplan (t : State) (b : Bool) : t.Keeps (t.replanIf b) := by
    unfold State.replanIf
    split
    · exact keeps_quiet t _ _ _ _ _
    · exact .refl t
  exact (((hset.trans (hrestore _ _)).trans (keeps_startDue _)).trans (hround _ _)).trans (hreplan _ _)

theorem keeps_answer (s : State) (x : Status) (c : Bool) (p : List Byte) : s.Keeps (s.answer x c p) :=
  keeps_quiet s _ _ _ _ _

theorem keeps_refuse (s : State) (x : Status) : s.Keeps (s.refuse x) := keeps_answer s x false []

theorem keeps_presentLink (s : State) (a : LinkAccess) : s.Keeps (s.presentLink a) := keeps_quiet s _ _ _ _ _

theorem keeps_slotStep (s : State) (above : Fin 64 → Bool) : s.Keeps (s.slotStep above) := by
  unfold State.slotStep
  split <;> exact keeps_quiet s _ _ _ _ _

theorem keeps_rankStep (s : State) (returned : List Handle) (status ended : Status) :
    s.Keeps (s.rankStep returned status ended) := by
  unfold State.rankStep
  split <;> exact keeps_quiet s _ _ _ _ _

theorem keeps_setService (s : State) (n : Fin 24) (service : Option Bool) : s.Keeps (s.setService n service) := by
  unfold State.setService
  split
  · split
    · exact (keeps_bus (Bus.keeps_serviceOut s.bus s.store.table n)).trans (keeps_quiet _ _ _ _ _ _)
    · exact .refl s
  · split
    · exact .refl s
    case isFalse hout =>
      exact (keeps_bus (Bus.keeps_serviceIn _ (by simpa using hout))).trans (keeps_quiet _ _ _ _ _ _)
  · exact .refl s

theorem keeps_applyClass (s : State) (c : Fin 16) (f : SetClassFields) : s.Keeps (s.applyClass c f) := by
  unfold State.applyClass
  split
  · exact keeps_refuse s _
  · exact { classes := fun hc => forall_vector_set hc (classClamped_sound f _) }

theorem keeps_applyHeld (s : State) : s.Keeps s.applyHeld := by
  unfold State.applyHeld
  split
  · split
    · exact keeps_applyClass s _ _
    · exact keeps_refuse s _
  · exact .refl s

theorem keeps_changeUnposted (s : State) (c : Change) : s.Keeps (s.changeUnposted c) := by
  unfold State.changeUnposted
  split
  · exact keeps_refuse s _
  · exact keeps_presentLink s _

theorem keeps_requestEffect (s : State) (r : Request) : s.Keeps (s.requestEffect r) := by
  cases r <;> dsimp only [State.requestEffect]
  case place f =>
    unfold State.placeRequest
    split
    · exact keeps_refuse s _
    · exact keeps_presentLink s _
  case change c => exact keeps_changeUnposted s c
  case lookup h =>
    unfold State.lookupRequest
    split
    · exact keeps_refuse s _
    · split
      · exact keeps_refuse s _
      · exact keeps_presentLink s _
  case find v =>
    unfold State.findRequest
    split
    · exact keeps_presentLink s _
    · exact keeps_refuse s _
  case walkStart form =>
    unfold State.walkStartRequest
    split
    · exact keeps_slotStep s _
    · exact keeps_rankStep s _ _ _
    · exact keeps_refuse s _
  case walkNext =>
    unfold State.walkNextRequest
    split
    · exact keeps_refuse s _
    · exact keeps_slotStep s _
    · exact keeps_rankStep s _ _ _
    · exact keeps_rankStep s _ _ _
  case setSite f =>
    unfold State.setSiteRequest
    split
    · exact keeps_refuse s _
    · exact (keeps_answer s _ _ _).trans (keeps_storeSite (siteClamped_sound _ _))
  case readSite => exact keeps_answer s _ _ _
  case setLink posting time =>
    unfold State.setLinkRequest
    split
    · exact keeps_refuse s _
    · exact keeps_quiet s _ _ _ _ _
  case setPost f =>
    unfold State.setPostRequest
    split
    · exact keeps_refuse s _
    split
    · exact keeps_refuse s _
    split
    · exact keeps_refuse s _
    · exact ((keeps_answer s _ _ _).trans (keeps_bus (Bus.keeps_configure _ _ f))).trans (keeps_setService _ _ _)
  case readPost post =>
    unfold State.readPostRequest
    split
    · exact keeps_refuse s _
    · exact keeps_answer s _ _ _
  case setClass f =>
    unfold State.setClassRequest
    split
    · exact keeps_refuse s _
    split
    · exact keeps_quiet s _ _ _ _ _
    · exact keeps_applyClass s _ f
  case clearClass cls =>
    unfold State.clearClassRequest
    split
    · exact keeps_refuse s _
    split
    · exact { classes := fun hc => forall_vector_set hc nofun }
    · exact keeps_refuse s _
  case readClass cls =>
    unfold State.readClassRequest
    split
    · exact keeps_refuse s _
    · exact keeps_answer s _ _ _
  case setTime minute second =>
    unfold State.setTimeRequest
    split
    case isTrue hok =>
      obtain ⟨hminute, hsecond⟩ := Bool.and_eq_true _ _ ▸ hok
      have : minute < 10080 := of_decide_eq_true hminute
      exact { clock := fun _ => ⟨of_decide_eq_true hsecond, Nat.le_of_lt_succ this⟩ }
    case isFalse => exact keeps_refuse s _
  case readTime => exact keeps_answer s _ _ _
  case setMode mode =>
    unfold State.setModeRequest
    split
    · exact keeps_refuse s _
    · exact (keeps_answer s _ _ _).trans (keeps_judgeCalls rfl id)
  case replan => exact keeps_quiet s _ _ _ _ _
  case readAttention source =>
    unfold State.readAttentionRequest
    split
    · exact keeps_answer s _ _ _
    · split
      · exact keeps_refuse s _
      · exact keeps_answer s _ _ _
  case clearAttention source flags =>
    unfold State.clearAttentionRequest
    split
    · exact keeps_refuse s _
    split
    · exact keeps_quiet s _ _ _ _ _
    · exact keeps_refuse s _
  case setMasks masks groups => exact keeps_quiet s _ _ _ _ _

theorem keeps_beginRequest (s : State) (r : Request) (tag : Byte) : s.Keeps (s.beginRequest r tag) :=
  keeps_quiet s _ _ _ _ _

theorem keeps_postOrRefuse (s : State) (c : Change) : s.Keeps (s.postOrRefuse c) := by
  unfold State.postOrRefuse
  split
  · exact keeps_refuse s _
  · exact keeps_quiet s _ _ _ _ _

theorem keeps_takeRequest (s : State) (r : Request) (tag : Byte) : s.Keeps (s.takeRequest r tag) := by
  unfold State.takeRequest
  split
  case h_1 c =>
    rcases changeRequest_cases s c tag with h | ⟨-, ⟨-, h⟩ | ⟨-, h⟩ | ⟨-, h⟩⟩ <;> rw [h]
    · exact .refl s
    · exact (keeps_beginRequest s _ tag).trans (keeps_postOrRefuse _ c)
    · exact (keeps_beginRequest s _ tag).trans (keeps_changeUnposted _ c)
    · exact keeps_beginRequest s _ tag
  case h_2 =>
    rcases carryOut_cases s r tag (fun t => t.requestEffect r) with h | ⟨-, ⟨-, h⟩ | ⟨-, h⟩⟩ <;> rw [h]
    · exact .refl s
    · exact (keeps_beginRequest s r tag).trans (keeps_requestEffect _ r)
    · exact keeps_beginRequest s r tag

/-! ### The accesses of the site link port -/

theorem keeps_linkDone (s : State) (x : Status) (c : Bool) (p : List Byte) : s.Keeps (s.linkDone x c p) := by
  unfold State.linkDone
  split <;> exact keeps_quiet s _ _ _ _ _

theorem keeps_finishLink (s : State) : s.Keeps s.finishLink := by
  unfold State.finishLink State.carryWaiting
  split
  · exact ((keeps_startDue s).trans (keeps_requestEffect _ _)).finish
  · exact keeps_finish s

theorem keeps_createAccess (s : State) (f : PlaceFields) : s.Keeps (s.createAccess f) := by
  unfold State.createAccess
  split
  · exact keeps_linkDone s _ _ _
  split
  case h_1 n cls tier hfree hcls htier =>
    exact (((keeps_store fun hs => hs.create s.clock.minute n _).trans
      (keeps_classes fun hc => addUser_sound cls n hc)).trans
      (keeps_bus (Bus.keeps_orderPending s.bus f.vehicle))).trans (keeps_linkDone _ _ _ _)
  · exact keeps_linkDone s _ _ _

theorem keeps_amendApply (s : State) (h : Handle) (o : Order) (f : AmendFields) : s.Keeps (s.amendApply h o f) := by
  have hclasses (b : Bool) (c : Fin 16) : (∀ k : Fin 16, s.classes[k].sound) →
      ∀ k : Fin 16, (if b then addUser (dropUser s.classes h.slot) c h.slot else s.classes)[k].sound := by
    intro hc
    split
    · exact addUser_sound _ _ (dropUser_sound h.slot hc)
    · exact hc
  have hbus : Bus.Keeps s.supply.mode s.bus (f.vehicle?.elim s.bus s.bus.orderPending) := by
    cases f.vehicle? with
    | none => exact .refl _
    | some v => exact Bus.keeps_orderPending s.bus v
  unfold State.amendApply
  split
  · exact ((((keeps_store fun hs => hs.amend s.clock.minute h o f).trans (keeps_classes (hclasses _ _))).trans
      (keeps_bus hbus)).trans (keeps_quiet _ _ _ _ _ _)).trans (keeps_linkDone _ _ _ _)
  · exact keeps_linkDone s _ _ _

theorem keeps_amendAccess (s : State) (f : AmendFields) : s.Keeps (s.amendAccess f) := by
  unfold State.amendAccess
  split
  · exact keeps_linkDone s _ _ _
  · exact (keeps_damaged s _).trans (keeps_linkDone _ _ _ _)
  · split
    · exact keeps_linkDone s _ _ _
    · exact keeps_amendApply s _ _ f

theorem keeps_withdrawAccess (s : State) (r : RawHandle) : s.Keeps (s.withdrawAccess r) := by
  unfold State.withdrawAccess
  split
  · exact keeps_linkDone s _ _ _
  · exact (keeps_damaged s _).trans (keeps_linkDone _ _ _ _)
  · exact (keeps_closeOrder s _ _ _).trans (keeps_linkDone _ _ _ _)

theorem keeps_freeAccess (s : State) (r : RawHandle) : s.Keeps (s.freeAccess r) := by
  unfold State.freeAccess
  split
  · exact keeps_linkDone s _ _ _
  split
  · exact keeps_linkDone s _ _ _
  · exact keeps_linkDone s _ _ _
  · exact (keeps_store fun hs => hs.free _).trans (keeps_linkDone _ _ _ _)

theorem keeps_readAccess (s : State) (h : Handle) (status : Status) : s.Keeps (s.readAccess h status) := by
  unfold State.readAccess
  split
  · exact keeps_linkDone s _ _ _
  split
  · exact keeps_linkDone s _ _ _
  · dsimp only
    split
    · exact keeps_linkDone s _ _ _
    · exact (keeps_damaged s h).trans (keeps_linkDone _ _ _ _)

/-! ### The accesses of the post bus engine -/

theorem keeps_completed (s : State) : s.Keeps s.completed := keeps_quiet s _ _ _ _ _

theorem keeps_onBound {s : State} (n : Fin 24) (h : Handle) {effect : Order → State} (he : ∀ o, s.Keeps (effect o)) :
    s.Keeps (s.onBound n h effect) := by
  unfold State.onBound
  split
  · exact .refl s
  · exact keeps_damaged s h
  · exact he _

theorem keeps_bindAccess (s : State) (n : Fin 24) (note : BindNote) : s.Keeps (s.bindAccess n note) := by
  unfold State.bindAccess
  split
  · exact .refl s
  · exact keeps_bus (Bus.keeps_setCondition s.bus n .conflict)
  · exact keeps_bus (Bus.keeps_setCondition s.bus n .unordered)
  case h_4 h _ => exact (keeps_damaged s h).trans (keeps_bus ((Bus.Keeps.refl _).trigger _))
  case h_5 h o _ =>
    exact ((keeps_store fun hs => (hs.writeOrder h.slot (o.bind n)).setTable n (some h)).trans
      (keeps_bus (Bus.keeps_bindingNotice s.bus n h _ note))).trans (keeps_quiet _ _ _ _ _ _)

theorem keeps_unbindAccess (s : State) (n : Fin 24) (h : Handle) (cause : UnbindCause) :
    s.Keeps (s.unbindAccess n h cause) := by
  refine keeps_onBound n h fun o => ?_
  split
  · exact keeps_returnToPending s h o
  · exact keeps_closeOrder s h o _

theorem keeps_stallEntry (s : State) (h : Handle) (cause : StallCause) (o : Order) :
    s.Keeps (s.stallEntry h cause o) := by
  unfold State.stallEntry
  split
  · exact keeps_writeOrder s h _
  · exact .refl s

theorem keeps_stallReplace (s : State) (h : Handle) (cause : StallCause) (o : Order) :
    s.Keeps (s.stallReplace h cause o) := by
  unfold State.stallReplace
  split
  · exact keeps_writeOrder s h _
  · exact .refl s

theorem keeps_recover (s : State) (h : Handle) (o : Order) : s.Keeps (s.recover h o) := by
  unfold State.recover
  split
  · exact (keeps_writeOrder s h _).trans (keeps_quiet _ _ _ _ _ _)
  · exact .refl s

/-! ### Rounds -/

theorem keeps_advanceRound (s : State) : s.Keeps s.advanceRound := keeps_quiet s _ _ _ _ _

theorem keeps_snapshotRead (s : State) (n : Fin 24) (h : Handle) : s.Keeps (s.snapshotRead n h) := by
  unfold State.snapshotRead
  split
  · split
    · exact keeps_damaged s h
    · exact keeps_quiet s _ _ _ _ _
  · exact .refl s

theorem keeps_sweepRead (s : State) (h : Handle) : s.Keeps (s.sweepRead h) := by
  unfold State.sweepRead
  split
  · exact .refl s
  split
  · split
    · exact keeps_damaged s h
    · split
      · exact keeps_closeOrder s h _ _
      · exact .refl s
  · exact .refl s

theorem keeps_compute (s : State) (r : Round) : s.Keeps (s.compute r) := by
  unfold State.compute
  exact { supply := fun hs => ⟨Nat.zero_le _, hs.2⟩ }

theorem keeps_release (s : State) (r : Round) : s.Keeps (s.release r) :=
  ((keeps_bus (Bus.keeps_release s.bus s.store.table)).trans (keeps_quiet _ _ _ _ _ _)).trans (keeps_applyHeld _)

theorem keeps_releaseIfDone (s : State) : s.Keeps s.releaseIfDone := by
  unfold State.releaseIfDone
  split
  · split
    · exact keeps_release s _
    · exact .refl s
  · exact .refl s

/-- A grant lowered to a deliverable level at a post is a power of the post's range. -/
theorem lower_powerSound (c : ClassParams) (heater : Heater) {feed : Nat} (hf : feed ≤ 10000) (w : Nat) :
    powerSound ((heaterLimits c heater feed).lower w) := by
  rw [lower_eq]
  unfold heaterLimits powerSound floor100
  cases heater <;> dsimp only <;> split_ifs <;> omega

theorem takenGrant_spec (s : State) (n : Fin 24) (h : Handle) (decided : OrderState) (offered : Nat) :
    s.takenGrant n h decided offered = 0 ∨
      s.takenGrant n h decided offered = offered ∧ s.bus.posts[n].inService = true ∧ s.bus.posts[n].state = .bound ∧
        s.bus.posts[n].silent = false ∧ s.supply.mode ≠ .shed := by
  unfold State.takenGrant
  split
  case isTrue hok =>
    obtain ⟨hin, hbound, -, hsilent, hmode, -⟩ := hok
    exact .inr ⟨rfl, hin, hbound, hsilent, hmode⟩
  case isFalse => exact .inl rfl

theorem keeps_writeDecision (s : State) (e : RowEntry) (x : RowResult) (o : Order) (now : Nat) :
    s.Keeps (s.writeDecision e x o now) := by
  unfold State.writeDecision
  dsimp only
  have htaken := takenGrant_spec s e.row.post e.row.handle x.decides (s.loweredGrant e.row.post o x.grant)
  generalize s.takenGrant e.row.post e.row.handle x.decides (s.loweredGrant e.row.post o x.grant) = taken at htaken
  refine (keeps_store fun hs => hs.writeOrder e.row.handle.slot _).trans
    (keeps_bus (Bus.keeps_modify (fun _ hs => setRecorded_sound hs ?_) fun _ => setRecorded_grantSound ?_))
  · obtain ⟨-, -, -, -, hfeed, -⟩ := hs
    rcases htaken with rfl | ⟨rfl, -⟩
    · exact powerSound_zero
    · exact lower_powerSound _ _ hfeed.2.1 _
  · exact htaken.imp id And.right

theorem keeps_decide (s : State) (r : Round) (e : RowEntry) (x : RowResult) (o : Order) :
    s.Keeps (s.decide r e x o) := by
  unfold State.decide
  split
  · exact keeps_closeOrder s _ o _
  split
  · exact (keeps_store fun hs => hs.writeOrder e.row.handle.slot _).trans (keeps_quiet _ _ _ _ _ _)
  · exact (keeps_writeDecision s e x o r.now).trans (keeps_quiet _ _ _ _ _ _)

theorem keeps_writeBack (s : State) (n : Fin 24) : s.Keeps (s.writeBack n) := by
  unfold State.writeBack
  split
  · exact .refl s
  split
  · exact .refl s
  unfold State.writeBackRow
  split
  · exact .refl s
  split
  · exact keeps_damaged s _
  · exact .refl s
  · split
    · exact keeps_decide s _ _ _ _
    · exact .refl s

/-! ### The post bus, the lines and the frames -/

theorem keeps_postFrame (s : State) (bytes : List Byte) : s.Keeps (s.postFrame bytes) := by
  unfold State.postFrame
  split
  · exact .refl s
  case h_2 x hx =>
    split
    case h_1 r hr =>
      exact (keeps_bus ((Bus.keeps_answered s.bus s.store.table x (parseReport_sound hr)).trans
        (Bus.keeps_endExchange _))).trans (keeps_quiet _ _ _ _ _ _)
    case h_2 => exact keeps_bus ((Bus.keeps_unanswered s.store.table hx).trans (Bus.keeps_endExchange _))

theorem keeps_replyTimesOut (s : State) : s.Keeps s.replyTimesOut := by
  unfold State.replyTimesOut
  split
  · exact .refl s
  case h_2 x hx => exact keeps_bus ((Bus.keeps_unanswered s.store.table hx).trans (Bus.keeps_endExchange _))

theorem keeps_plugFilterExpires (s : State) (n : Fin 24) : s.Keeps (s.plugFilterExpires n) := by
  have hevent (t : State) (l : Level) : t.Keeps (t.plugEvent n l) := by
    cases l with
    | high =>
      show t.Keeps (t.plugInEvent n)
      unfold State.plugInEvent
      split
      · exact (keeps_bus (Bus.keeps_plugIn t.bus n)).trans (keeps_quiet _ _ _ _ _ _)
      · exact .refl t
    | low =>
      show t.Keeps (t.plugOutEvent n)
      unfold State.plugOutEvent
      split
      · exact (keeps_bus (Bus.keeps_plugOut t.bus t.store.table n)).trans (keeps_quiet _ _ _ _ _ _)
      · exact .refl t
  unfold State.plugFilterExpires
  split
  · exact (keeps_quiet s _ _ _ _ _).trans (hevent _ _)
  · exact .refl s

theorem setFilter_mode (x : Supply) (f : LineFilter) (line : SiteLine) : (x.setFilter f line).mode = x.mode := by
  cases line <;> rfl

theorem setFilter_sound {x : Supply} (f : LineFilter) (line : SiteLine) (h : x.sound) : (x.setFilter f line).sound := by
  cases line <;> exact h

theorem keeps_siteFilterExpires (s : State) (line : SiteLine) : s.Keeps (s.siteFilterExpires line) := by
  unfold State.siteFilterExpires
  split
  · exact keeps_judgeCalls (setFilter_mode _ _ _) fun hs => setFilter_sound _ _ hs
  · exact .refl s

theorem keeps_supervisionExpires (s : State) : s.Keeps s.supervisionExpires := by
  unfold State.supervisionExpires
  split
  · exact keeps_quiet s _ _ _ _ _
  · exact .refl s

theorem keeps_frameComplete (s : State) (f : Frame) : s.Keeps (s.frameComplete f) := by
  unfold State.frameComplete State.validFrame
  split
  · exact .refl s
  split
  · dsimp only
    split <;> exact keeps_quiet s _ _ _ _ _
  · exact keeps_quiet s _ _ _ _ _

theorem keeps_receiveByte (s : State) (b : Byte) : s.Keeps (s.receiveByte b) := by
  unfold State.receiveByte
  split
  · split
    · exact keeps_quiet s _ _ _ _ _
    · exact .refl s
  · split <;> exact keeps_quiet s _ _ _ _ _
  · split
    · exact (keeps_quiet s _ _ _ _ _).trans (keeps_frameComplete _ _)
    · exact keeps_quiet s _ _ _ _ _

theorem keeps_receiveBytes (s : State) (bytes : List Byte) : s.Keeps (bytes.foldl State.receiveByte s) := by
  induction bytes generalizing s with
  | nil => exact .refl s
  | cons b rest ih => exact (keeps_receiveByte s b).trans (ih _)

theorem keeps_takeFrame (s : State) (f : Frame) : s.Keeps (s.takeFrame f) := by
  unfold State.takeFrame
  split
  · exact keeps_quiet s _ _ _ _ _
  split
  · exact keeps_quiet s _ _ _ _ _
  split
  · exact .refl s
  · exact (keeps_quiet s _ _ _ _ _).trans (keeps_takeRequest _ _ _)

/-! ### Time and resets -/

theorem Clock.tick_sound {c : Clock} (h : c.sound) : c.tick.sound := by
  obtain ⟨hsecond, hminute⟩ := h
  unfold Clock.tick Clock.sound
  split
  · dsimp only
    omega
  · dsimp only
    split <;> omega

theorem keeps_runTimers (s : State) : s.Keeps s.runTimers := by
  unfold State.runTimers
  exact
    { supply := fun hs => Supply.runTimers_sound hs
      bus := (Bus.keeps_runTimers (mode := s.supply.mode) s.bus).sound
      grants := (Bus.keeps_runTimers s.bus).grants }

/-- An expiry that is due takes effect, and one that is not changes nothing. -/
theorem keeps_ite {s t : State} {p : Prop} [Decidable p] (h : s.Keeps t) : s.Keeps (if p then t else s) := by
  split
  · exact h
  · exact .refl s

theorem keeps_tickPlugs (s : State) (l : List (Fin 24)) : s.Keeps (l.foldl State.tickPlug s) := by
  induction l generalizing s with
  | nil => exact .refl s
  | cons n rest ih => exact (keeps_ite (keeps_plugFilterExpires s n).finish).trans (ih _)

theorem keeps_tick (s : State) : s.Keeps s.tick := by
  have hgap : s.runTimers.Keeps s.runTimers.tickGap := keeps_ite (keeps_quiet _ _ _ _ _ _)
  have hplugs : s.Keeps (allPosts.foldl State.tickPlug s.runTimers.tickGap.tickReply) :=
    (((keeps_runTimers s).trans hgap).trans (keeps_ite (keeps_replyTimesOut _).finish)).trans (keeps_tickPlugs _ _)
  unfold State.tick
  dsimp only
  generalize allPosts.foldl State.tickPlug s.runTimers.tickGap.tickReply = s2 at hplugs
  have hline (t : State) (line : SiteLine) : t.Keeps (t.tickLine line) := keeps_ite (keeps_siteFilterExpires t line).finish
  have hrestore (t : State) : t.Keeps t.tickRestore := keeps_ite (keeps_restoreExpires t).finish
  have hsupervision (t : State) : t.Keeps t.tickSupervision := keeps_ite (keeps_supervisionExpires t).finish
  have hsecond (t : State) : t.Keeps t.tickSecond := keeps_ite { clock := Clock.tick_sound }
  have hround (t : State) (due : Bool) : t.Keeps (t.tickRound due) := keeps_ite (keeps_roundTimerExpires t).finish
  exact (((((hplugs.trans (hline _ _)).trans (hline _ _)).trans (hrestore _)).trans (hsupervision _)).trans
    (hsecond _)).trans (hround _ _)

theorem Clock.init_sound : Clock.init.sound := ⟨by decide, by decide⟩

theorem SiteSettings.init_sound : SiteSettings.init.sound := by
  unfold SiteSettings.sound SiteSettings.init
  decide

end Sys2Proof.Machine

/-! Every command keeps the invariants of the blocks, and what a step keeps (R28, R31, R32, R81; R45 to R183). -/

namespace Sys2Proof.Machine

/-- A command that acts on an access in flight completes it, or does nothing. -/
theorem keeps_served {s t : State} (h : s.completed.Keeps t) : s.Keeps t := (keeps_completed s).trans h

theorem keeps_completed_onBound (s : State) (n : Fin 24) (h : Handle) {effect : Order → State}
    (he : ∀ o, s.completed.Keeps (effect o)) : s.Keeps (s.completed.onBound n h effect).finish :=
  keeps_served (keeps_onBound n h he).finish

/-- Every command answers a next state, and keeps what an event keeps. -/
theorem exec_keeps (c : Instr) (s : State) : ∃ t, exec c s = .next t ∧ s.Keeps t := by
  cases c
  case powerOn =>
    exact ⟨_, rfl,
      { clock := fun _ => Clock.init_sound
        site := fun _ => SiteSettings.init_sound
        supply := fun _ => Supply.init_sound
        classes := fun _ c => by simp [State.reset, ClassEntry.init, ClassEntry.sound]
        bus := fun _ => Bus.init_sound
        grants := fun _ => Bus.init_grantsSound _
        store := fun _ => Store.init_sound }⟩
  case restart =>
    exact ⟨_, rfl,
      { supply := fun _ => Supply.restart_sound s.supply
        classes := fun hc c => by simpa [ClassEntry.sound] using hc c
        bus := fun hb => Bus.restart_sound hb
        grants := fun _ => Bus.restart_grantsSound s.bus _
        store := fun _ => Store.restart_sound s.store }⟩
  case secondBoundary => exact ⟨_, rfl, { clock := Clock.tick_sound }⟩
  case frameReceived bytes => exact ⟨_, rfl, ((keeps_quiet s _ _ _ _ _).trans (keeps_receiveBytes _ bytes)).finish⟩
  case frameGapTimeout => exact ⟨_, rfl, keeps_quiet s _ _ _ _ _⟩
  case frameTaken =>
    refine ⟨_, rfl, ?_⟩
    split
    · exact (keeps_takeFrame s _).finish
    · exact .refl s
  case place tag f => exact ⟨_, exec_command (.place f) tag s, (keeps_takeRequest s _ tag).finish⟩
  case amend tag f => exact ⟨_, exec_command (.change (.amend f)) tag s, (keeps_takeRequest s _ tag).finish⟩
  case withdraw tag h => exact ⟨_, exec_command (.change (.withdraw h)) tag s, (keeps_takeRequest s _ tag).finish⟩
  case release tag h => exact ⟨_, exec_command (.change (.release h)) tag s, (keeps_takeRequest s _ tag).finish⟩
  case lookup tag h => exact ⟨_, exec_command (.lookup h) tag s, (keeps_takeRequest s _ tag).finish⟩
  case find tag v => exact ⟨_, exec_command (.find v) tag s, (keeps_takeRequest s _ tag).finish⟩
  case walkStart tag form => exact ⟨_, exec_command (.walkStart form) tag s, (keeps_takeRequest s _ tag).finish⟩
  case walkNext tag => exact ⟨_, exec_command .walkNext tag s, (keeps_takeRequest s _ tag).finish⟩
  case setSite tag f => exact ⟨_, exec_command (.setSite f) tag s, (keeps_takeRequest s _ tag).finish⟩
  case readSite tag => exact ⟨_, exec_command .readSite tag s, (keeps_takeRequest s _ tag).finish⟩
  case setLink tag p t => exact ⟨_, exec_command (.setLink p t) tag s, (keeps_takeRequest s _ tag).finish⟩
  case setPost tag f => exact ⟨_, exec_command (.setPost f) tag s, (keeps_takeRequest s _ tag).finish⟩
  case readPost tag n => exact ⟨_, exec_command (.readPost n) tag s, (keeps_takeRequest s _ tag).finish⟩
  case setClass tag f => exact ⟨_, exec_command (.setClass f) tag s, (keeps_takeRequest s _ tag).finish⟩
  case clearClass tag c => exact ⟨_, exec_command (.clearClass c) tag s, (keeps_takeRequest s _ tag).finish⟩
  case readClass tag c => exact ⟨_, exec_command (.readClass c) tag s, (keeps_takeRequest s _ tag).finish⟩
  case setTime tag m sec => exact ⟨_, exec_command (.setTime m sec) tag s, (keeps_takeRequest s _ tag).finish⟩
  case readTime tag => exact ⟨_, exec_command .readTime tag s, (keeps_takeRequest s _ tag).finish⟩
  case setMode tag m => exact ⟨_, exec_command (.setMode m) tag s, (keeps_takeRequest s _ tag).finish⟩
  case replan tag => exact ⟨_, exec_command .replan tag s, (keeps_takeRequest s _ tag).finish⟩
  case readAttention tag n => exact ⟨_, exec_command (.readAttention n) tag s, (keeps_takeRequest s _ tag).finish⟩
  case clearAttention tag n fl =>
    exact ⟨_, exec_command (.clearAttention n fl) tag s, (keeps_takeRequest s _ tag).finish⟩
  case setMasks tag m g => exact ⟨_, exec_command (.setMasks m g) tag s, (keeps_takeRequest s _ tag).finish⟩
  case supervisionExpiry => exact ⟨_, rfl, (keeps_supervisionExpires s).finish⟩
  case createAccess =>
    refine ⟨_, rfl, ?_⟩
    split
    · exact keeps_served ((keeps_createAccess _ _).trans (keeps_finishLink _))
    · exact .refl s
  case amendAccess =>
    refine ⟨_, rfl, ?_⟩
    split
    · exact keeps_served ((keeps_amendAccess _ _).trans (keeps_finishLink _))
    · exact .refl s
  case withdrawAccess =>
    refine ⟨_, rfl, ?_⟩
    split
    · exact keeps_served ((keeps_withdrawAccess _ _).trans (keeps_finishLink _))
    · exact .refl s
  case freeAccess =>
    refine ⟨_, rfl, ?_⟩
    split
    · exact keeps_served ((keeps_freeAccess _ _).trans (keeps_finishLink _))
    · exact .refl s
  case readAccess =>
    refine ⟨_, rfl, ?_⟩
    split
    · exact keeps_served ((keeps_readAccess _ _ _).trans (keeps_finishLink _))
    · exact .refl s
  case indexRead =>
    refine ⟨_, rfl, ?_⟩
    split
    · exact keeps_served ((keeps_linkDone _ _ _ _).trans (keeps_finishLink _))
    · exact .refl s
  case bindAccess =>
    refine ⟨_, rfl, ?_⟩
    split
    · exact keeps_served (keeps_bindAccess _ _ _).finish
    · exact .refl s
  case unbindAccess =>
    refine ⟨_, rfl, ?_⟩
    split
    · exact keeps_served (keeps_unbindAccess _ _ _ _).finish
    · exact .refl s
  case stallEntry =>
    refine ⟨_, rfl, ?_⟩
    split
    · split
      · exact .refl s
      · exact keeps_completed_onBound s _ _ fun o => keeps_stallEntry _ _ _ o
    · exact .refl s
  case stallCauseReplacement =>
    refine ⟨_, rfl, ?_⟩
    split
    · split
      · exact keeps_completed_onBound s _ _ fun o => keeps_stallReplace _ _ _ o
      · exact .refl s
    · exact .refl s
  case recovery =>
    refine ⟨_, rfl, ?_⟩
    split
    · exact keeps_completed_onBound s _ _ fun o => keeps_recover _ _ o
    · exact .refl s
  case addEnergy =>
    refine ⟨_, rfl, ?_⟩
    split
    · exact keeps_completed_onBound s _ _ fun o => keeps_writeOrder _ _ _
    · exact .refl s
  case zeroGrantOnShed =>
    refine ⟨_, rfl, ?_⟩
    split
    · exact keeps_completed_onBound s _ _ fun o => keeps_writeOrder _ _ _
    · exact .refl s
  case roundTimerExpiry => exact ⟨_, rfl, (keeps_roundTimerExpires s).finish⟩
  case snapshotRead =>
    refine ⟨_, rfl, ?_⟩
    split
    · exact keeps_served ((keeps_snapshotRead _ _ _).trans (keeps_advanceRound _)).finish
    · exact .refl s
  case sweepRead =>
    refine ⟨_, rfl, ?_⟩
    split
    · exact keeps_served ((keeps_sweepRead _ _).trans (keeps_advanceRound _)).finish
    · exact .refl s
  case roundCompute =>
    refine ⟨_, rfl, ?_⟩
    split
    · split
      · exact ((keeps_compute s _).trans (keeps_releaseIfDone _)).finish
      · exact .refl s
    · exact .refl s
  case writeBack =>
    refine ⟨_, rfl, ?_⟩
    split
    · exact keeps_served ((keeps_writeBack _ _).trans (keeps_releaseIfDone _)).finish
    · exact .refl s
  case exchangeStart =>
    refine ⟨_, rfl, ?_⟩
    split
    · exact .refl s
    · exact keeps_bus (Bus.keeps_startExchange s.bus)
  case postReply bytes => exact ⟨_, rfl, (keeps_postFrame s bytes).finish⟩
  case replyTimeout => exact ⟨_, rfl, (keeps_replyTimesOut s).finish⟩
  case plugSenseChange n level => exact ⟨_, rfl, keeps_quiet s _ _ _ _ _⟩
  case plugFilterExpiry n => exact ⟨_, rfl, (keeps_plugFilterExpires s n).finish⟩
  case siteLineChange line level =>
    exact ⟨_, rfl, { supply := fun hs => setFilter_sound _ _ hs, grants := by rw [setFilter_mode]; exact id }⟩
  case siteLineFilterExpiry line => exact ⟨_, rfl, (keeps_siteFilterExpires s line).finish⟩
  case restoreTimerExpiry => exact ⟨_, rfl, (keeps_restoreExpires s).finish⟩
  case meterPulse edge => exact ⟨_, rfl, keeps_meterTransition s edge⟩

/-- A step keeps what an event keeps, but for the command it takes from the queue. -/
theorem step_keeps {s t : State} (h : step s = .next t) : ∃ rest, State.Keeps { s with pending := rest } t := by
  unfold step at h
  split at h
  case h_1 hp =>
    cases h
    exact ⟨s.pending, keeps_tick s⟩
  case h_2 c rest hp =>
    obtain ⟨u, hu, hk⟩ := exec_keeps c { s with pending := rest }
    rw [hu] at h
    cases h
    exact ⟨rest, hk⟩

/-- Settles O57: every event keeps R81 at each post, and the entry into SHED zeroes every grant (`keeps_changeMode`). -/
theorem grantsStaySound : Obligations.GrantsStaySound := by
  intro s t hs ht
  obtain ⟨rest, hk⟩ := step_keeps ht
  exact hk.grants hs

/-- Settles O59: every event keeps the directory's copies and the index (`State.Keeps`). -/
theorem storeStaysSound : Obligations.StoreStaysSound := by
  intro s t hs ht
  obtain ⟨rest, hk⟩ := step_keeps ht
  exact hk.store hs

end Sys2Proof.Machine

/-! The site link port keeps its invariant (R166 to R169, R175): a request in progress waits exactly while changes are
posted ahead of it. -/

namespace Sys2Proof.Machine

/-! ### Operations that leave the port as it is -/

@[simp] theorem State.compute_link (s : State) (r : Round) : (s.compute r).link = s.link := rfl

@[simp] theorem State.meterTransition_link (s : State) (edge : Edge) : (s.meterTransition edge).link = s.link := by
  unfold State.meterTransition
  split
  · split <;> rfl
  · rfl

theorem onBound_link {s : State} {n : Fin 24} {h : Handle} {effect : Order → State}
    (he : ∀ o, (effect o).link = s.link) : (s.onBound n h effect).link = s.link := by
  unfold State.onBound
  split
  · rfl
  · exact State.damaged_link s h
  · exact he _

@[simp] theorem State.bindAccess_link (s : State) (n : Fin 24) (note : BindNote) : (s.bindAccess n note).link = s.link := by
  unfold State.bindAccess
  split
  · rfl
  · rfl
  · rfl
  · exact State.damaged_link s _
  · rfl

@[simp] theorem State.unbindAccess_link (s : State) (n : Fin 24) (h : Handle) (cause : UnbindCause) :
    (s.unbindAccess n h cause).link = s.link :=
  onBound_link fun o => by split <;> simp

@[simp] theorem State.stallEntry_link (s : State) (h : Handle) (cause : StallCause) (o : Order) :
    (s.stallEntry h cause o).link = s.link := by
  unfold State.stallEntry
  split <;> rfl

@[simp] theorem State.stallReplace_link (s : State) (h : Handle) (cause : StallCause) (o : Order) :
    (s.stallReplace h cause o).link = s.link := by
  unfold State.stallReplace
  split <;> rfl

@[simp] theorem State.recover_link (s : State) (h : Handle) (o : Order) : (s.recover h o).link = s.link := by
  unfold State.recover
  split <;> rfl

@[simp] theorem State.snapshotRead_link (s : State) (n : Fin 24) (h : Handle) : (s.snapshotRead n h).link = s.link := by
  unfold State.snapshotRead
  split
  · split
    · exact State.damaged_link s h
    · rfl
  · rfl

@[simp] theorem State.sweepRead_link (s : State) (h : Handle) : (s.sweepRead h).link = s.link := by
  unfold State.sweepRead
  split
  · rfl
  split
  · split
    · exact State.damaged_link s h
    · split <;> simp
  · rfl

@[simp] theorem State.writeBack_link (s : State) (n : Fin 24) : (s.writeBack n).link = s.link := by
  have hdecide (r : Round) (e : RowEntry) (x : RowResult) (o : Order) : (s.decide r e x o).link = s.link := by
    unfold State.decide
    split
    · exact State.closeOrder_link s _ o _
    · split <;> rfl
  unfold State.writeBack
  split
  · rfl
  split
  · rfl
  unfold State.writeBackRow
  split
  · rfl
  split
  · exact State.damaged_link s _
  · rfl
  · split
    · exact hdecide _ _ _ _
    · rfl

@[simp] theorem State.postFrame_link (s : State) (bytes : List Byte) : (s.postFrame bytes).link = s.link := by
  unfold State.postFrame
  split
  · rfl
  · split <;> rfl

@[simp] theorem State.replyTimesOut_link (s : State) : s.replyTimesOut.link = s.link := by
  unfold State.replyTimesOut
  split <;> rfl

@[simp] theorem State.plugFilterExpires_link (s : State) (n : Fin 24) : (s.plugFilterExpires n).link = s.link := by
  have hevent (t : State) (l : Level) : (t.plugEvent n l).link = t.link := by
    cases l with
    | high =>
      show (t.plugInEvent n).link = _
      unfold State.plugInEvent
      split <;> rfl
    | low =>
      show (t.plugOutEvent n).link = _
      unfold State.plugOutEvent
      split <;> rfl
  unfold State.plugFilterExpires
  split
  · exact hevent _ _
  · rfl

@[simp] theorem State.siteFilterExpires_link (s : State) (line : SiteLine) :
    (s.siteFilterExpires line).link = s.link := by
  unfold State.siteFilterExpires
  split
  · exact State.judgeCalls_link s _
  · rfl

/-! ### Requests -/

/-- The counts and the time of the port lie in their ranges (R168, R175). -/
def Link.bounded (l : Link) : Prop := l.posting.length ≤ 2 ∧ supervisionTimeSound l.supervisionTime

/-- A request in progress is past waiting for posted changes (R166, R167). -/
def Link.settled (l : Link) : Prop := ∀ p ∈ l.inProgress, p.stage ≠ .taken

/-- A request in progress waits while changes are posted ahead of it (R167). -/
def Link.ordered (l : Link) : Prop := l.posting ≠ [] → ∀ p ∈ l.inProgress, p.stage = .taken

theorem Link.sound.bounded {l : Link} (h : l.sound) : l.bounded := h.1

theorem Link.sound.ordered {l : Link} (h : l.sound) : l.ordered := fun hp p hm => (h.2 p hm).mpr hp

/-- With no posted change ahead, a port is sound when its request in progress is past waiting. -/
theorem Link.sound_of_settled {l : Link} (hb : l.bounded) (hp : l.posting = []) (hs : l.settled) : l.sound :=
  ⟨hb, fun p hm => by simp [hs p hm, hp]⟩

theorem Link.settled_of_none {l : Link} (h : l.inProgress = none) : l.settled := by
  intro p hp
  rw [h] at hp
  cases hp

theorem Link.answer_inProgress (l : Link) (x : Status) (c : Bool) (p : List Byte) :
    (l.answer x c p).inProgress = none := by
  unfold Link.answer
  split
  · rfl
  · assumption

theorem Link.answer_posting (l : Link) (x : Status) (c : Bool) (p : List Byte) :
    (l.answer x c p).posting = l.posting := by
  unfold Link.answer
  split <;> rfl

theorem Link.answer_supervisionTime (l : Link) (x : Status) (c : Bool) (p : List Byte) :
    (l.answer x c p).supervisionTime = l.supervisionTime := by
  unfold Link.answer
  split <;> rfl

/-- What carrying a request out leaves of the port: the request past waiting, and the posted changes as they were. -/
structure Link.Carried (l m : Link) : Prop where
  settled : m.settled
  posting : m.posting = l.posting
  time : supervisionTimeSound l.supervisionTime → supervisionTimeSound m.supervisionTime

theorem carried_answer (l : Link) (x : Status) (c : Bool) (p : List Byte) : l.Carried (l.answer x c p) where
  settled := Link.settled_of_none (Link.answer_inProgress l x c p)
  posting := Link.answer_posting l x c p
  time := by rw [Link.answer_supervisionTime]; exact id

theorem carried_stage (l : Link) {stage : Stage} (h : stage ≠ .taken) :
    l.Carried { l with inProgress := l.inProgress.map (fun p => { p with stage := stage }) } where
  settled := by
    intro p hp
    obtain ⟨q, -, rfl⟩ := Option.mem_map.mp hp
    exact h
  posting := rfl
  time := id

theorem carried_refuse (s : State) (x : Status) : s.link.Carried (s.refuse x).link := carried_answer _ _ _ _

theorem carried_present (s : State) (a : LinkAccess) : s.link.Carried (s.presentLink a).link :=
  carried_stage s.link nofun

theorem Link.Carried.walk {l m : Link} {w : Walk} (h : Link.Carried { l with walk := w } m) : l.Carried m :=
  ⟨h.settled, h.posting, h.time⟩

theorem carried_slotStep (s : State) (above : Fin 64 → Bool) : s.link.Carried (s.slotStep above).link := by
  unfold State.slotStep
  split
  · exact (carried_present (s.setWalk _) _).walk
  · exact (carried_answer (s.setWalk _).link _ _ _).walk

theorem carried_rankStep (s : State) (returned : List Handle) (status ended : Status) :
    s.link.Carried (s.rankStep returned status ended).link := by
  unfold State.rankStep
  split
  · exact (carried_present (s.setWalk _) _).walk
  · exact (carried_answer (s.setWalk _).link _ _ _).walk

theorem supervisionStored_sound (t : Nat) : supervisionTimeSound (supervisionStored t) := by
  unfold supervisionTimeSound supervisionStored clampNat
  split <;> omega

theorem setService_link (s : State) (n : Fin 24) (service : Option Bool) : (s.setService n service).link = s.link := by
  unfold State.setService
  split
  · split <;> rfl
  · split <;> rfl
  · rfl

theorem applyClass_link_carried (s : State) (c : Fin 16) (f : SetClassFields) :
    s.link.Carried (s.applyClass c f).link := by
  unfold State.applyClass
  split
  · exact carried_refuse s _
  · exact carried_answer s.link _ _ _

theorem carried_changeUnposted (s : State) (c : Change) : s.link.Carried (s.changeUnposted c).link := by
  unfold State.changeUnposted
  split
  · exact carried_refuse s _
  · exact carried_present s _

theorem carried_requestEffect (s : State) (r : Request) : s.link.Carried (s.requestEffect r).link := by
  cases r <;> dsimp only [State.requestEffect]
  case place f =>
    unfold State.placeRequest
    split
    · exact carried_refuse s _
    · exact carried_present s _
  case change c => exact carried_changeUnposted s c
  case lookup h =>
    unfold State.lookupRequest
    split
    · exact carried_refuse s _
    · split
      · exact carried_refuse s _
      · exact carried_present s _
  case find v =>
    unfold State.findRequest
    split
    · exact carried_present s _
    · exact carried_refuse s _
  case walkStart form =>
    unfold State.walkStartRequest
    split
    · exact carried_slotStep s _
    · exact carried_rankStep s _ _ _
    · exact carried_refuse s _
  case walkNext =>
    unfold State.walkNextRequest
    split
    · exact carried_refuse s _
    · exact carried_slotStep s _
    · exact carried_rankStep s _ _ _
    · exact carried_rankStep s _ _ _
  case setSite f =>
    unfold State.setSiteRequest
    split
    · exact carried_refuse s _
    · rw [State.storeSite_link]
      exact carried_answer s.link _ _ _
  case readSite => exact carried_answer s.link _ _ _
  case setLink posting time =>
    unfold State.setLinkRequest
    split
    · exact carried_refuse s _
    · obtain ⟨hsettled, hposting, -⟩ := carried_answer s.link .done (supervisionStored time ≠ time) []
      exact ⟨hsettled, hposting, fun _ => supervisionStored_sound time⟩
  case setPost f =>
    unfold State.setPostRequest
    split
    · exact carried_refuse s _
    split
    · exact carried_refuse s _
    split
    · exact carried_refuse s _
    · dsimp only
      rw [setService_link]
      exact carried_answer s.link _ _ _
  case readPost post =>
    unfold State.readPostRequest
    split
    · exact carried_refuse s _
    · exact carried_answer s.link _ _ _
  case setClass f =>
    unfold State.setClassRequest
    split
    · exact carried_refuse s _
    split
    · exact carried_stage s.link nofun
    · exact applyClass_link_carried s _ f
  case clearClass cls =>
    unfold State.clearClassRequest
    split
    · exact carried_refuse s _
    split
    · exact carried_answer s.link _ _ _
    · exact carried_refuse s _
  case readClass cls =>
    unfold State.readClassRequest
    split
    · exact carried_refuse s _
    · exact carried_answer s.link _ _ _
  case setTime minute second =>
    unfold State.setTimeRequest
    split
    · exact carried_answer s.link _ _ _
    · exact carried_refuse s _
  case readTime => exact carried_answer s.link _ _ _
  case setMode mode =>
    unfold State.setModeRequest
    split
    · exact carried_refuse s _
    · rw [State.judgeCalls_link]
      exact carried_answer s.link _ _ _
  case replan => exact carried_answer s.link _ _ _
  case readAttention source =>
    unfold State.readAttentionRequest
    split
    · exact carried_answer s.link _ _ _
    · split
      · exact carried_refuse s _
      · exact carried_answer s.link _ _ _
  case clearAttention source flags =>
    unfold State.clearAttentionRequest
    split
    · exact carried_refuse s _
    split
    · exact carried_answer s.link _ _ _
    · exact carried_refuse s _
  case setMasks masks groups => exact carried_answer s.link _ _ _

/-- A request carried out with no posted change ahead leaves a sound port. -/
theorem Link.Carried.sound {l m : Link} (h : l.Carried m) (hb : l.bounded) (hp : l.posting = []) : m.sound :=
  Link.sound_of_settled ⟨by simp [h.posting, hp], h.time hb.2⟩ (h.posting.trans hp) h.settled

theorem postOrRefuse_link_sound {s : State} {c : Change} (hb : s.link.bounded) (hroom : s.link.posting.length < 2) :
    (s.postOrRefuse c).link.sound := by
  have hsound {l : Link} (hb : l.bounded) (hnone : l.inProgress = none) : l.sound :=
    ⟨hb, by rw [hnone]; nofun⟩
  unfold State.postOrRefuse
  split
  case h_1 status _ =>
    obtain ⟨-, hposting, htime⟩ := carried_refuse s status
    exact hsound ⟨hposting ▸ hb.1, htime hb.2⟩ (Link.answer_inProgress _ _ _ _)
  case h_2 =>
    obtain ⟨-, hposting, htime⟩ := carried_answer s.link .posted (s.postedClamped c) c.handle.bytes
    refine hsound ⟨?_, htime hb.2⟩ (Link.answer_inProgress _ _ _ _)
    show ((s.link.answer _ _ _).posting ++ [c]).length ≤ 2
    rw [hposting, List.length_append]
    exact hroom

/-- A request that comes while changes are posted waits for them. -/
theorem beginRequest_link_sound {s : State} (r : Request) (tag : Byte) (hb : s.link.bounded)
    (hp : s.link.posting ≠ []) : (s.beginRequest r tag).link.sound :=
  ⟨hb, by rintro p ⟨⟩; simpa [State.beginRequest] using hp⟩

/-- The port takes a change it would post only while a posting slot is free. -/
theorem posting_room {l : Link} {c : Change} (ht : l.takes (.change c) = true) (hw : l.wouldPost (.change c) = true) :
    l.posting.length < 2 := by
  obtain ⟨-, -, hblocked⟩ := takes_iff.mp ht
  simpa [Link.blocked, hw, Config.postingSlots] using hblocked

theorem takeRequest_link_sound {s : State} (r : Request) (tag : Byte) (h : s.link.sound) :
    (s.takeRequest r tag).link.sound := by
  unfold State.takeRequest
  split
  case h_1 c =>
    rcases changeRequest_cases s c tag with q | ⟨ht, ⟨hw, q⟩ | ⟨hp, q⟩ | ⟨hp, q⟩⟩ <;> rw [q]
    · exact h
    · exact postOrRefuse_link_sound (s := s.beginRequest _ tag) h.bounded (posting_room (l := s.link) ht hw)
    · exact (carried_changeUnposted _ c).sound h.bounded hp
    · exact beginRequest_link_sound _ tag h.bounded hp
  case h_2 =>
    rcases carryOut_cases s r tag (fun t => t.requestEffect r) with q | ⟨-, ⟨hp, q⟩ | ⟨hp, q⟩⟩ <;> rw [q]
    · exact h
    · exact (carried_requestEffect _ r).sound h.bounded hp
    · exact beginRequest_link_sound _ tag h.bounded hp

/-! ### The end of a LINK access -/

/-- Once the last posted change has drained, the waiting request is carried out. -/
theorem finishLink_link_sound {s : State} (hb : s.link.bounded) (ho : s.link.ordered) : s.finishLink.link.sound := by
  unfold State.finishLink
  rw [State.finish_link]
  by_cases hwait : s.link.posting ≠ [] ∨ ∀ p ∈ s.link.inProgress, p.stage ≠ .taken
  · rw [carryWaiting_none hwait]
    rcases hwait with hp | hs
    · exact ⟨hb, fun p hm => by simp [ho hp p hm, hp]⟩
    · by_cases hp : s.link.posting = []
      · exact Link.sound_of_settled hb hp hs
      · exact ⟨hb, fun p hm => absurd (ho hp p hm) (hs p hm)⟩
  · push Not at hwait
    obtain ⟨hp, ⟨r, tag, stage⟩, hm, rfl⟩ := hwait
    rw [carryWaiting_some hp hm]
    exact (carried_requestEffect _ r).sound (by rw [State.startDue_link]; exact hb) (by rw [State.startDue_link]; exact hp)

theorem linkDone_link_ordered {s : State} (h : s.link.sound) (x : Status) (c : Bool) (p : List Byte) :
    (s.linkDone x c p).link.bounded ∧ (s.linkDone x c p).link.ordered := by
  unfold State.linkDone
  split
  case h_1 d rest hp =>
    have hlen := h.bounded.1
    rw [hp, List.length_cons] at hlen
    exact ⟨⟨Nat.le_of_succ_le hlen, h.bounded.2⟩, fun _ => h.ordered (by simp [hp])⟩
  case h_2 hp =>
    have hs := (carried_answer s.link x c p).sound h.bounded hp
    exact ⟨hs.bounded, hs.ordered⟩

/-- An access that leaves the port as it is, and then ends, leaves it sound. -/
theorem served_link_sound {s t : State} (h : s.link.sound) (ht : t.link = s.link) (x : Status) (c : Bool)
    (p : List Byte) : (t.linkDone x c p).finishLink.link.sound := by
  obtain ⟨hb, ho⟩ := linkDone_link_ordered (ht ▸ h : t.link.sound) x c p
  exact finishLink_link_sound hb ho

theorem createAccess_link_sound {s : State} (f : PlaceFields) (h : s.link.sound) :
    (s.createAccess f).finishLink.link.sound := by
  unfold State.createAccess
  split
  · exact served_link_sound h (by with_reducible rfl) _ _ _
  · split
    · exact served_link_sound h (by with_reducible rfl) _ _ _
    · exact served_link_sound h (by with_reducible rfl) _ _ _

theorem amendAccess_link_sound {s : State} (f : AmendFields) (h : s.link.sound) :
    (s.amendAccess f).finishLink.link.sound := by
  unfold State.amendAccess
  split
  · exact served_link_sound h (by with_reducible rfl) _ _ _
  · exact served_link_sound h (State.damaged_link s _) _ _ _
  · split
    · exact served_link_sound h (by with_reducible rfl) _ _ _
    · unfold State.amendApply
      split
      · exact served_link_sound h (by with_reducible rfl) _ _ _
      · exact served_link_sound h (by with_reducible rfl) _ _ _

theorem withdrawAccess_link_sound {s : State} (r : RawHandle) (h : s.link.sound) :
    (s.withdrawAccess r).finishLink.link.sound := by
  unfold State.withdrawAccess
  split
  · exact served_link_sound h (by with_reducible rfl) _ _ _
  · exact served_link_sound h (State.damaged_link s _) _ _ _
  · exact served_link_sound h (State.closeOrder_link s _ _ _) _ _ _

theorem freeAccess_link_sound {s : State} (r : RawHandle) (h : s.link.sound) :
    (s.freeAccess r).finishLink.link.sound := by
  unfold State.freeAccess
  split
  · exact served_link_sound h (by with_reducible rfl) _ _ _
  split
  · exact served_link_sound h (by with_reducible rfl) _ _ _
  · exact served_link_sound h (by with_reducible rfl) _ _ _
  · exact served_link_sound h (by with_reducible rfl) _ _ _

theorem readAccess_link_sound {s : State} (k : Handle) (status : Status) (h : s.link.sound) :
    (s.readAccess k status).finishLink.link.sound := by
  unfold State.readAccess
  split
  · exact served_link_sound h (by with_reducible rfl) _ _ _
  split
  · exact served_link_sound h (by with_reducible rfl) _ _ _
  · dsimp only
    split
    · exact served_link_sound h (by with_reducible rfl) _ _ _
    · exact served_link_sound h (State.damaged_link s k) _ _ _

/-! ### The release, the receiver and time -/

/-- A held SET CLASS has no posted change ahead of it, so its answer leaves a sound port. -/
theorem applyHeld_link_sound {s : State} (h : s.link.sound) : s.applyHeld.link.sound := by
  unfold State.applyHeld
  split
  case h_1 f tag hheld =>
    have hp : s.link.posting = [] := by
      by_contra hne
      exact nomatch h.ordered hne _ hheld
    split
    · exact (applyClass_link_carried s _ f).sound h.bounded hp
    · exact (carried_refuse s _).sound h.bounded hp
  case h_2 => exact h

theorem releaseIfDone_link_sound {s : State} (h : s.link.sound) : s.releaseIfDone.link.sound := by
  unfold State.releaseIfDone
  split
  · split
    · exact applyHeld_link_sound h
    · exact h
  · exact h

theorem frameComplete_link_sound {s : State} (f : Frame) (h : s.link.sound) : (s.frameComplete f).link.sound := by
  unfold State.frameComplete State.validFrame
  split
  · exact h
  split
  · dsimp only
    split <;> exact h
  · exact h

theorem receiveByte_link_sound {s : State} (b : Byte) (h : s.link.sound) : (s.receiveByte b).link.sound := by
  unfold State.receiveByte
  split
  · split <;> exact h
  · split <;> exact h
  · split
    · exact frameComplete_link_sound _ h
    · exact h

theorem receiveBytes_link_sound {s : State} (bytes : List Byte) (h : s.link.sound) :
    (bytes.foldl State.receiveByte s).link.sound := by
  induction bytes generalizing s with
  | nil => exact h
  | cons b rest ih => exact ih (receiveByte_link_sound b h)

theorem takeFrame_link_sound {s : State} (f : Frame) (h : s.link.sound) : (s.takeFrame f).link.sound := by
  unfold State.takeFrame
  split
  · exact h
  split
  · exact h
  split
  · exact h
  · exact takeRequest_link_sound (s := s.emptyBuffer) _ _ h

theorem supervisionExpires_link_sound {s : State} (h : s.link.sound) : s.supervisionExpires.link.sound := by
  unfold State.supervisionExpires
  split <;> exact h

theorem Link.init_sound : Link.init.sound := ⟨⟨by decide, .inl rfl⟩, nofun⟩

theorem Link.restart_sound {l : Link} (h : l.sound) : l.restart.sound := ⟨⟨Nat.zero_le _, h.1.2⟩, nofun⟩

theorem tick_link_sound {s : State} (h : s.link.sound) : s.tick.link.sound := by
  have hplugs (l : List (Fin 24)) (t : State) : (l.foldl State.tickPlug t).link = t.link := by
    induction l generalizing t with
    | nil => rfl
    | cons n rest ih =>
      refine (ih _).trans ?_
      unfold State.tickPlug
      split <;> simp
  have hgap : s.runTimers.tickGap.tickReply.link.sound := by
    have : s.runTimers.tickGap.link.sound := by
      unfold State.tickGap
      split <;> exact h
    unfold State.tickReply
    split
    · simpa using this
    · exact this
  rw [← hplugs allPosts] at hgap
  unfold State.tick
  dsimp only
  generalize allPosts.foldl State.tickPlug s.runTimers.tickGap.tickReply = s2 at hgap
  have hline (t : State) (line : SiteLine) : (t.tickLine line).link = t.link := by
    unfold State.tickLine
    split <;> simp
  have hrestore (t : State) : t.tickRestore.link = t.link := by
    unfold State.tickRestore
    split <;> simp
  have hsecond (t : State) : t.tickSecond.link = t.link := by
    unfold State.tickSecond
    split <;> rfl
  have hround (t : State) (due : Bool) : (t.tickRound due).link = t.link := by
    unfold State.tickRound
    split <;> simp
  rw [hround, hsecond]
  unfold State.tickSupervision
  split
  · rw [State.finish_link]
    exact supervisionExpires_link_sound (by rw [hrestore, hline, hline]; exact hgap)
  · rw [hrestore, hline, hline]
    exact hgap

/-! ### Every command -/

theorem exec_link_sound {c : Instr} {s t : State} (h : s.link.sound) (ht : exec c s = .next t) : t.link.sound := by
  have hrequest (r : Request) (tag : Byte) (hr : exec (r.command tag) s = .next t) : t.link.sound := by
    rw [exec_command] at hr
    cases hr
    rw [State.finish_link]
    exact takeRequest_link_sound r tag h
  have hbound (n : Fin 24) (k : Handle) {effect : Order → State}
      (he : ∀ o, (effect o).link = s.completed.link) : (s.completed.onBound n k effect).finish.link.sound := by
    rw [State.finish_link, onBound_link he]
    exact h
  cases c
  case place tag f => exact hrequest (.place f) tag ht
  case amend tag f => exact hrequest (.change (.amend f)) tag ht
  case withdraw tag k => exact hrequest (.change (.withdraw k)) tag ht
  case release tag k => exact hrequest (.change (.release k)) tag ht
  case lookup tag k => exact hrequest (.lookup k) tag ht
  case find tag v => exact hrequest (.find v) tag ht
  case walkStart tag form => exact hrequest (.walkStart form) tag ht
  case walkNext tag => exact hrequest .walkNext tag ht
  case setSite tag f => exact hrequest (.setSite f) tag ht
  case readSite tag => exact hrequest .readSite tag ht
  case setLink tag p m => exact hrequest (.setLink p m) tag ht
  case setPost tag f => exact hrequest (.setPost f) tag ht
  case readPost tag n => exact hrequest (.readPost n) tag ht
  case setClass tag f => exact hrequest (.setClass f) tag ht
  case clearClass tag k => exact hrequest (.clearClass k) tag ht
  case readClass tag k => exact hrequest (.readClass k) tag ht
  case setTime tag m sec => exact hrequest (.setTime m sec) tag ht
  case readTime tag => exact hrequest .readTime tag ht
  case setMode tag m => exact hrequest (.setMode m) tag ht
  case replan tag => exact hrequest .replan tag ht
  case readAttention tag n => exact hrequest (.readAttention n) tag ht
  case clearAttention tag n fl => exact hrequest (.clearAttention n fl) tag ht
  case setMasks tag m g => exact hrequest (.setMasks m g) tag ht
  all_goals cases ht
  case powerOn => exact Link.init_sound
  case restart => exact Link.restart_sound h
  case frameReceived bytes =>
    rw [State.finish_link]
    exact receiveBytes_link_sound (s := { s with link := { s.link with gap := 0 } }) bytes h
  case frameGapTimeout => exact h
  case frameTaken =>
    split
    · rw [State.finish_link]
      exact takeFrame_link_sound _ h
    · exact h
  case supervisionExpiry =>
    rw [State.finish_link]
    exact supervisionExpires_link_sound h
  case createAccess =>
    split
    · exact createAccess_link_sound (s := s.completed) _ h
    · exact h
  case amendAccess =>
    split
    · exact amendAccess_link_sound (s := s.completed) _ h
    · exact h
  case withdrawAccess =>
    split
    · exact withdrawAccess_link_sound (s := s.completed) _ h
    · exact h
  case freeAccess =>
    split
    · exact freeAccess_link_sound (s := s.completed) _ h
    · exact h
  case readAccess =>
    split
    · exact readAccess_link_sound (s := s.completed) _ _ h
    · exact h
  case indexRead =>
    split
    · exact served_link_sound (s := s.completed) h rfl _ _ _
    · exact h
  case roundCompute =>
    split
    · split
      · rw [State.finish_link]
        exact releaseIfDone_link_sound (s := s.compute _) h
      · exact h
    · exact h
  case writeBack =>
    split
    · rw [State.finish_link]
      exact releaseIfDone_link_sound (by simpa using h)
    · exact h
  case stallEntry =>
    split
    · split
      · exact h
      · exact hbound _ _ fun o => State.stallEntry_link _ _ _ o
    · exact h
  case stallCauseReplacement =>
    split
    · split
      · exact hbound _ _ fun o => State.stallReplace_link _ _ _ o
      · exact h
    · exact h
  case recovery =>
    split
    · exact hbound _ _ fun o => State.recover_link _ _ o
    · exact h
  case addEnergy =>
    split
    · exact hbound _ _ fun o => State.writeOrder_link _ _ _
    · exact h
  case zeroGrantOnShed =>
    split
    · exact hbound _ _ fun o => State.writeOrder_link _ _ _
    · exact h
  all_goals
    have hsame : ∀ u : State, u.link = s.link → u.link.sound := fun u hu => hu ▸ h
    apply hsame
    repeat' split
    all_goals simp

/-- Settles O58: every block's invariant is kept (`State.Keeps`), and the port's by every command and by time. -/
theorem stateStaysSound : Obligations.StateStaysSound := by
  intro s t ⟨hclock, hsite, hsupply, hlink, hclasses, hposts, hlevel⟩ ht
  obtain ⟨rest, hk⟩ := step_keeps ht
  have hport : t.link.sound := by
    unfold step at ht
    split at ht
    case h_1 =>
      cases ht
      exact tick_link_sound hlink
    case h_2 c rest _ => exact exec_link_sound (s := { s with pending := rest }) hlink ht
  obtain ⟨hposts', hlevel'⟩ := hk.bus ⟨hposts, hlevel⟩
  exact ⟨hk.clock hclock, hk.site hsite, hk.supply hsupply, hport, hk.classes hclasses, hposts', hlevel'⟩

/-- Settles O60: the reset state holds the power-on values, which meet each block's invariant. -/
theorem resetSound : Obligations.ResetSound :=
  ⟨Bus.init_grantsSound _,
    ⟨Clock.init_sound, SiteSettings.init_sound, Supply.init_sound, Link.init_sound,
      fun c => by simp [State.reset, ClassEntry.init, ClassEntry.sound], Bus.init_sound.1, Bus.init_sound.2⟩,
    Store.init_sound.1, Store.init_sound.2⟩

end Sys2Proof.Machine

/-! Steps, time and resets: the queue, a millisecond, the two resets and the second boundary (00 section 1.3, 03, 95). -/

namespace Sys2Proof.Machine

/-- Settles O1. -/
theorem stepTakesFront : Obligations.StepTakesFront := fun _ _ _ => rfl

/-! ### What an expiry leaves of clock and settings -/

/-- Depot time and the site settings are the same. -/
def State.SameClockSite (s t : State) : Prop := t.clock = s.clock ∧ t.site = s.site

theorem State.SameClockSite.refl (s : State) : s.SameClockSite s := ⟨rfl, rfl⟩

theorem State.SameClockSite.trans {s t u : State} (h : s.SameClockSite t) (k : t.SameClockSite u) :
    s.SameClockSite u := ⟨k.1.trans h.1, k.2.trans h.2⟩

theorem State.SameClockSite.finish {s t : State} (h : s.SameClockSite t) : s.SameClockSite t.finish :=
  h.trans ⟨State.finish_clock t, State.finish_site t⟩

/-- An expiry that is due takes effect, and one that is not changes nothing. -/
theorem State.SameClockSite.ite {s t : State} {p : Prop} [Decidable p] (h : s.SameClockSite t) :
    s.SameClockSite (if p then t else s) := by
  split
  · exact h
  · exact .refl s

theorem replyTimesOut_sameClockSite (s : State) : s.SameClockSite s.replyTimesOut := by
  unfold State.replyTimesOut
  split <;> exact ⟨rfl, rfl⟩

theorem plugFilterExpires_sameClockSite (s : State) (n : Fin 24) : s.SameClockSite (s.plugFilterExpires n) := by
  have hevent (t : State) (l : Level) : t.SameClockSite (t.plugEvent n l) := by
    cases l
    case high =>
      show t.SameClockSite (t.plugInEvent n)
      unfold State.plugInEvent
      exact State.SameClockSite.ite ⟨rfl, rfl⟩
    case low =>
      show t.SameClockSite (t.plugOutEvent n)
      unfold State.plugOutEvent
      exact State.SameClockSite.ite ⟨rfl, rfl⟩
  unfold State.plugFilterExpires
  exact State.SameClockSite.ite (hevent { s with plug := s.plug.set n s.plug[n].expire } s.plug[n].line)

theorem siteFilterExpires_sameClockSite (s : State) (line : SiteLine) : s.SameClockSite (s.siteFilterExpires line) :=
  State.SameClockSite.ite ⟨State.judgeCalls_clock s _, State.judgeCalls_site s _⟩

theorem restoreExpires_sameClockSite (s : State) : s.SameClockSite s.restoreExpires :=
  ⟨State.restoreExpires_clock s, State.restoreExpires_site s⟩

theorem supervisionExpires_sameClockSite (s : State) : s.SameClockSite s.supervisionExpires :=
  State.SameClockSite.ite ⟨rfl, rfl⟩

theorem roundTimerExpires_sameClockSite (s : State) : s.SameClockSite s.roundTimerExpires :=
  ⟨State.roundTimerExpires_clock s, State.roundTimerExpires_site s⟩

theorem tickPlugs_sameClockSite (s : State) (l : List (Fin 24)) : s.SameClockSite (l.foldl State.tickPlug s) := by
  induction l generalizing s with
  | nil => exact .refl s
  | cons n rest ih => exact (State.SameClockSite.ite (plugFilterExpires_sameClockSite s n).finish).trans (ih _)

/-! ### A millisecond -/

/-- The part as its second falls due: every expiry but the second boundary and the round timer has been judged. -/
def State.beforeSecond (s : State) : State :=
  ((((allPosts.foldl State.tickPlug s.runTimers.tickGap.tickReply).tickLine .limit).tickLine .shed).tickRestore).tickSupervision

theorem tick_eq (s : State) : s.tick = s.beforeSecond.tickSecond.tickRound s.runTimers.roundTimerDue := rfl

theorem beforeSecond_sameClockSite (s : State) : s.runTimers.SameClockSite s.beforeSecond := by
  have hgap : s.runTimers.SameClockSite s.runTimers.tickGap := State.SameClockSite.ite ⟨rfl, rfl⟩
  have hreply (t : State) : t.SameClockSite t.tickReply :=
    State.SameClockSite.ite (replyTimesOut_sameClockSite t).finish
  have hline (t : State) (line : SiteLine) : t.SameClockSite (t.tickLine line) :=
    State.SameClockSite.ite (siteFilterExpires_sameClockSite t line).finish
  have hrestore (t : State) : t.SameClockSite t.tickRestore :=
    State.SameClockSite.ite (restoreExpires_sameClockSite t).finish
  have hsupervision (t : State) : t.SameClockSite t.tickSupervision :=
    State.SameClockSite.ite (supervisionExpires_sameClockSite t).finish
  exact (((((hgap.trans (hreply _)).trans (tickPlugs_sameClockSite _ _)).trans (hline _ _)).trans (hline _ _)).trans
    (hrestore _)).trans (hsupervision _)

theorem tickRound_sameClockSite (s : State) (due : Bool) : s.SameClockSite (s.tickRound due) :=
  State.SameClockSite.ite (roundTimerExpires_sameClockSite s).finish

theorem runTimers_clock (s : State) : s.runTimers.clock = { s.clock with prescaler := s.clock.prescaler + 1 } := by
  with_unfolding_all rfl

theorem runTimers_site (s : State) : s.runTimers.site = s.site := by
  unfold State.runTimers
  with_reducible rfl

theorem tick_site (s : State) : s.tick.site = s.site := by
  rw [tick_eq, (tickRound_sameClockSite _ _).2]
  have hsecond (t : State) : t.tickSecond.site = t.site := by
    unfold State.tickSecond
    split <;> rfl
  rw [hsecond, (beforeSecond_sameClockSite s).2, runTimers_site]

/-- The clock counts one millisecond, and a second at the thousandth (R45, R46). -/
theorem tick_clock (s : State) : s.tick.clock =
    if s.clock.prescaler + 1 < 1000 then { s.clock with prescaler := s.clock.prescaler + 1 } else s.clock.tick := by
  have hclock : s.beforeSecond.clock = { s.clock with prescaler := s.clock.prescaler + 1 } :=
    (beforeSecond_sameClockSite s).1.trans (runTimers_clock s)
  rw [tick_eq, (tickRound_sameClockSite _ _).1]
  unfold State.tickSecond
  rw [hclock]
  by_cases h : s.clock.prescaler + 1 < 1000
  · rw [if_pos h, if_neg (Nat.not_le.mpr h)]
    exact hclock
  · rw [if_neg h, if_pos (Nat.not_lt.mp h)]
    rfl

theorem reached_iff (timer : Option Nat) (count : Nat) : reached timer count = true ↔ ∃ k ∈ timer, count ≤ k := by
  unfold reached
  rw [option_any_iff]
  simp

/-- A timer that has not reached its count. -/
theorem not_reached {timer : Option Nat} {count : Nat} (h : ∀ k ∈ timer, k < count) : ¬ reached timer count = true := by
  rw [reached_iff]
  rintro ⟨k, hk, hle⟩
  exact absurd (h k hk) (Nat.not_lt.mpr hle)

/-- The state after the plug filters of the posts below `k` have been judged. -/
def State.plugsJudged (s : State) (k : Nat) : State := (allPosts.take k).foldl State.tickPlug s

theorem plugsJudged_succ (s : State) (n : Fin 24) : s.plugsJudged (n + 1) = (s.plugsJudged n).tickPlug n := by
  have hlen : (n : Nat) < allPosts.length := by simp [allPosts]
  have hget : allPosts[(n : Nat)] = n := by simp [allPosts]
  unfold State.plugsJudged
  rw [List.take_succ_eq_append_getElem hlen, List.foldl_append, hget]
  rfl

theorem plugsJudged_all (s : State) : s.plugsJudged 24 = allPosts.foldl State.tickPlug s := rfl

/-- Every timer counts a millisecond: the whole state, written out. -/
theorem runTimers_eq {s : State} {plug : Vector LineFilter 24}
    (h : ∀ n : Fin 24, plug[n] = { s.plug[n] with timer := s.plug[n].timer.map (· + 1) }) :
    State.runTimers { s with pending := [] } = { s with
       clock := { s.clock with prescaler := s.clock.prescaler + 1 }
       link := { s.link with
         gap := if s.link.receiver = .hunting then s.link.gap else s.link.gap + 1
         supervision := if s.link.autonomy then s.link.supervision else s.link.supervision.map (· + 1) }
       bus := { s.bus with exchange := s.bus.exchange.map (fun x => { x with timer := x.timer + 1 }) }
       plug := plug
       planner := { s.planner with timer := s.planner.timer + 1 }
       supply := { s.supply with
         interval := s.supply.interval + 1
         limit := { s.supply.limit with timer := s.supply.limit.timer.map (· + 1) }
         shed := { s.supply.shed with timer := s.supply.shed.timer.map (· + 1) }
         restore := s.supply.restore.map (· + 1) }
       pending := [] } := by
  have hplug : Vector.ofFn (fun n : Fin 24 => s.plug[n].run) = plug := by
    ext i hi
    rw [Vector.getElem_ofFn]
    exact (h ⟨i, hi⟩).symm
  unfold State.runTimers
  dsimp only
  rw [hplug]
  rfl

/-- An expiry of a timer that has reached its count has the effect of its row, and one that has not changes nothing. -/
theorem expiry_spec {s t : State} {c : Instr} {timer : Option Nat} {count : Nat} (hexec : exec c s = .next t) :
    ((∃ k ∈ timer, count ≤ k) → exec c s = .next (if reached timer count then t else s)) ∧
      ((∀ k ∈ timer, k < count) → (if reached timer count then t else s) = s) := by
  refine ⟨fun h => ?_, fun h => if_neg (not_reached h)⟩
  rw [if_pos ((reached_iff _ _).mpr h)]
  exact hexec

theorem tickGap_spec (s : State) :
    (20 < s.link.gap → exec .frameGapTimeout s = .next s.tickGap) ∧ (s.link.gap ≤ 20 → s.tickGap = s) :=
  ⟨fun h => congrArg Host.Outcome.next (if_pos h).symm, fun h => if_neg (Nat.not_lt.mpr h)⟩

theorem tickReply_spec (s : State) :
    ((∃ x ∈ s.bus.exchange, 25 ≤ x.timer) → exec .replyTimeout s = .next s.tickReply) ∧
      ((∀ x ∈ s.bus.exchange, x.timer < 25) → s.tickReply = s) := by
  obtain ⟨hdue, hnot⟩ := expiry_spec (s := s) (c := .replyTimeout) (timer := s.bus.exchange.map Exchange.timer)
    (count := 25) rfl
  refine ⟨fun ⟨x, hx, hle⟩ => hdue ⟨x.timer, Option.mem_map_of_mem _ hx, hle⟩, fun h => hnot fun k hk => ?_⟩
  obtain ⟨x, hx, rfl⟩ := Option.mem_map.mp hk
  exact h x hx

theorem tickPlug_spec (s : State) (n : Fin 24) :
    ((∃ k ∈ s.plug[n].timer, 2000 ≤ k) → exec (.plugFilterExpiry n) s = .next (s.tickPlug n)) ∧
      ((∀ k ∈ s.plug[n].timer, k < 2000) → s.tickPlug n = s) :=
  expiry_spec rfl

theorem tickLine_spec (s : State) (line : SiteLine) :
    ((∃ k ∈ (s.supply.filter line).timer, 2000 ≤ k) → exec (.siteLineFilterExpiry line) s = .next (s.tickLine line)) ∧
      ((∀ k ∈ (s.supply.filter line).timer, k < 2000) → s.tickLine line = s) :=
  expiry_spec rfl

theorem tickRestore_spec (s : State) :
    ((∃ k ∈ s.supply.restore, s.site.restoreDelay * 1000 ≤ k) → exec .restoreTimerExpiry s = .next s.tickRestore) ∧
      ((∀ k ∈ s.supply.restore, k < s.site.restoreDelay * 1000) → s.tickRestore = s) :=
  expiry_spec rfl

theorem tickSupervision_spec (s : State) :
    ((∃ k ∈ s.link.supervision, s.link.supervisionTime * 1000 ≤ k) →
        exec .supervisionExpiry s = .next s.tickSupervision) ∧
      ((∀ k ∈ s.link.supervision, k < s.link.supervisionTime * 1000) → s.tickSupervision = s) :=
  expiry_spec rfl

theorem tickSecond_spec (s : State) :
    (1000 ≤ s.clock.prescaler → exec .secondBoundary s = .next s.tickSecond) ∧
      (s.clock.prescaler < 1000 → s.tickSecond = s) :=
  ⟨fun h => congrArg Host.Outcome.next (if_pos h).symm, fun h => if_neg (Nat.not_le.mpr h)⟩

/-- The round timer is judged by its count as the millisecond begins (R116). -/
theorem roundTimerDue_runTimers (s : State) :
    s.runTimers.roundTimerDue = true ↔ s.site.roundPeriod * 1000 ≤ s.planner.timer + 1 := by
  unfold State.roundTimerDue State.runTimers
  simp

/-- Settles O2: every command answers (`exec_keeps`), and the stages of `State.tick` are the expiries in their order. -/
theorem everyStepAnswers : Obligations.EveryStepAnswers := by
  refine ⟨fun c s => ?commands, fun s => ?clock, fun s t0 plug hplug ht0 => ?timers⟩
  case commands =>
    obtain ⟨t, ht, hk⟩ := exec_keeps c s
    exact ⟨t, ht, hk.pending⟩
  case clock =>
    exact ⟨_, rfl, (keeps_tick _).pending, tick_site _, tick_clock _⟩
  case timers =>
    rw [← runTimers_eq hplug] at ht0
    have hstep (due : Bool) (hdue : t0.roundTimerDue = due) : step { s with pending := [] } = .next
        ((((((t0.tickGap.tickReply.plugsJudged 24).tickLine .limit).tickLine .shed).tickRestore).tickSupervision).tickSecond.tickRound
          due) := by
      show Host.Outcome.next (State.tick { s with pending := [] }) = _
      rw [tick_eq, State.beforeSecond, ← ht0, hdue]
      rw [plugsJudged_all]
    have hperiod : t0.roundTimerDue = true ↔ s.site.roundPeriod * 1000 ≤ s.planner.timer + 1 := by
      rw [ht0]
      exact roundTimerDue_runTimers { s with pending := [] }
    have hzero : t0.tickGap.tickReply.plugsJudged 0 = t0.tickGap.tickReply := rfl
    have hsucc := plugsJudged_succ t0.tickGap.tickReply
    generalize t0.tickGap.tickReply.plugsJudged = f at hstep hzero hsucc
    refine ⟨t0.tickGap, t0.tickGap.tickReply, (f 24).tickLine .limit, _, _, _, _, f,
      (tickGap_spec _).1, (tickGap_spec _).2, (tickReply_spec _).1, (tickReply_spec _).2, hzero, fun n => ?plug,
      (tickLine_spec (f 24) .limit).1, (tickLine_spec (f 24) .limit).2, (tickLine_spec _ .shed).1, (tickLine_spec _ .shed).2,
      (tickRestore_spec _).1, (tickRestore_spec _).2, (tickSupervision_spec _).1, (tickSupervision_spec _).2,
      (tickSecond_spec _).1, (tickSecond_spec _).2, fun h => ?due, fun h => ?notDue⟩
    case plug =>
      rw [hsucc]
      exact tickPlug_spec _ n
    case due => exact hstep true (hperiod.mpr h)
    case notDue =>
      refine hstep false ?_
      rw [Bool.eq_false_iff, Ne, hperiod]
      omega

/-! ### The second boundary (R45) -/

/-- Settles O5: the two cases of `Clock.tick`, below second 59 and at it. -/
theorem secondBoundaryAdvances : Obligations.SecondBoundaryAdvances := by
  refine ⟨rfl, rfl, fun s hsecond hminute => ?_⟩
  by_cases h : s.clock.second < 59
  · refine ⟨s.clock.minute, s.clock.second + 1, ?_, hminute, h, fun _ => ⟨rfl, rfl⟩, fun heq => by omega⟩
    show Host.Outcome.next { s with clock := s.clock.tick } = _
    rw [Clock.tick, if_pos h]
  · refine ⟨if s.clock.minute < 10079 then s.clock.minute + 1 else 0, 0, ?_, ?_, Nat.zero_le _, fun hlt => absurd hlt h,
      fun _ => ⟨rfl, fun hlt => if_pos hlt, fun heq => if_neg (by omega)⟩⟩
    · show Host.Outcome.next { s with clock := s.clock.tick } = _
      rw [Clock.tick, if_neg h]
    · split <;> omega

/-! ### The resets (R43, R44) -/

/-- Settles O3. -/
theorem powerOnValues : Obligations.PowerOnValues := by
  refine ⟨⟨rfl, fun n => ?_, rfl, fun p => ?_, rfl, fun p => ?_, rfl, rfl, fun c => ?_, rfl, rfl, rfl, rfl, rfl, rfl, rfl,
    rfl, rfl, rfl, rfl, rfl, rfl, rfl⟩, fun s => ⟨_, rfl, rfl, rfl, rfl, rfl, rfl, rfl, rfl, rfl, rfl, rfl, fun p => ?_,
    ⟨rfl, rfl, rfl⟩, rfl, rfl, rfl⟩⟩
  · simp [State.reset, Store.init, Store.dir, DirEntry.freeAt]
  · simp [State.reset, Store.init]
  · simp [State.reset, Bus.init, Post.init]
  · simp [State.reset, ClassEntry.init]
  · simp [LineFilter.restart]

/-- Settles O4. -/
theorem restartKeepsConfiguration : Obligations.RestartKeepsConfiguration := by
  refine fun s => ⟨_, rfl, rfl, rfl, rfl, fun c => ?_, fun n => ?_, rfl, fun p => ?_, rfl, fun p => ?_, rfl, rfl, rfl,
    fun p => ?_, rfl, ?_, rfl, fun p => ?_, rfl, rfl, rfl, rfl, rfl, rfl, rfl⟩
  · simp
  · simp [Store.restart, DirEntry.freeAt]
  · simp [Store.restart, Store.init]
  · simp [Bus.restart, Post.restart, Post.init, Report.none, PendingReport.none]
  · simp [LineFilter.restart]
  · show s.supply.restart = _
    unfold Supply.restart ForcedMode.mode
    cases s.supply.forced <;> rfl
  · simp [Attention.restart, Attention.init, PostEvents.init]

/-! ### Handles and outcomes (R18, R27) -/

theorem raw_eq_iff (h : Handle) (r : RawHandle) : h.raw = r ↔ r.handle? = some h := by
  refine ⟨handle_of_raw, fun hr => ?_⟩
  unfold RawHandle.handle? at hr
  split at hr
  · cases hr
    rfl
  · cases hr

theorem verdict_eq_iff (st : Store) (h : Handle) (x : Occupancy) (v : Verdict)
    (hxv : x = .closed ∧ v = .closed ∨ x = .live ∧ v = .live) :
    st.verdict h = v ↔ (st.dir h.slot).occupancy = x ∧ (st.dir h.slot).generation = h.gen := by
  unfold Store.verdict
  by_cases hg : (st.dir h.slot).generation = h.gen <;> cases ho : (st.dir h.slot).occupancy <;>
    rcases hxv with ⟨rfl, rfl⟩ | ⟨rfl, rfl⟩ <;> simp [hg]

theorem verdict_unknown_iff (st : Store) (h : Handle) :
    st.verdict h = .unknown ↔ (st.dir h.slot).occupancy = .free ∨ (st.dir h.slot).generation ≠ h.gen := by
  unfold Store.verdict
  by_cases hg : (st.dir h.slot).generation = h.gen <;> cases ho : (st.dir h.slot).occupancy <;> simp [hg]

theorem rawVerdict_known_iff (st : Store) (r : RawHandle) {v : Verdict} (hv : v ≠ .unknown) :
    st.rawVerdict r = v ↔ ∃ h : Handle, h.raw = r ∧ st.verdict h = v := by
  refine ⟨fun h => ?_, fun ⟨h, hr, hv'⟩ => (rawVerdict_of_raw hr).trans hv'⟩
  obtain ⟨h, hr, hv'⟩ := rawVerdict_known hv h
  exact ⟨h, (raw_eq_iff h r).mpr hr, hv'⟩

theorem rawVerdict_unknown_iff (st : Store) (r : RawHandle) :
    st.rawVerdict r = .unknown ↔ ∀ h : Handle, h.raw = r → st.verdict h = .unknown := by
  refine ⟨fun h k hk => (rawVerdict_of_raw hk).symm.trans h, fun h => ?_⟩
  cases hr : r.handle? with
  | none =>
    unfold Store.rawVerdict
    rw [hr]
    rfl
  | some k =>
    have hk := (raw_eq_iff k r).mpr hr
    exact (rawVerdict_of_raw hk).trans (h k hk)

theorem rawVerdict_above {st : Store} {r : RawHandle} (h : 63 < r.slot) : st.rawVerdict r = .unknown := by
  rw [rawVerdict_unknown_iff]
  rintro k rfl
  have hlt := k.slot.isLt
  have hraw : k.raw.slot = k.slot := rfl
  omega

/-- Settles O7. -/
theorem handleVerdict : Obligations.HandleVerdict := by
  refine fun st r => ⟨?_, ?_, ?_, rawVerdict_above⟩
  · simp only [rawVerdict_unknown_iff, verdict_unknown_iff]
  · simp only [rawVerdict_known_iff st r (v := .closed) nofun, verdict_eq_iff st _ .closed .closed (.inl ⟨rfl, rfl⟩)]
  · simp only [rawVerdict_known_iff st r (v := .live) nofun, verdict_eq_iff st _ .live .live (.inr ⟨rfl, rfl⟩)]

/-- Settles O8, state by state. -/
theorem outcomeRule_eq : Obligations.OutcomeRule := by
  intro o
  unfold Machine.outcomeRule
  cases o.state <;> rfl

end Sys2Proof.Machine

/-! The receiver of the site link: bytes, frames and the check (11 section 12.1; 12 section 13.2). -/

namespace Sys2Proof.Machine

/-! ### The check, bit by bit (R179) -/

/-- One bit of a byte fed into the register, as R179 words it. -/
def crcFeed (r : Byte) (bit : Bool) : Byte := (r <<< 1) ^^^ (if r.msb = bit then 0 else 0x9B)

/-- A byte xored into the register beforehand is fed one bit a shift, from its highest on. -/
theorem crcShift_xor (r c : Byte) : crcShift (r ^^^ c) = crcFeed r c.msb ^^^ (c <<< 1) := by
  unfold crcShift crcFeed
  rw [BitVec.msb_xor, BitVec.shiftLeft_xor_distrib]
  cases hr : r.msb <;> cases hc : c.msb <;> simp [Config.crcPoly] <;> ac_rfl

theorem msb_shiftLeft_byte (b : Byte) {i : Nat} (h : i ≤ 7) : (b <<< i).msb = b.getLsbD (7 - i) := by
  rw [BitVec.msb_eq_getLsbD_last, BitVec.getLsbD_shiftLeft]
  simp
  omega

/-- The register after a byte, most significant bit first. -/
theorem crcByte_eq_feed (r b : Byte) :
    crcByte r b = (List.range 8).foldl (fun (r : Byte) i => crcFeed r (b.getLsbD (7 - i))) r := by
  have hshift (r : Byte) {i : Nat} (h : i ≤ 7) :
      crcShift (r ^^^ b <<< i) = crcFeed r (b.getLsbD (7 - i)) ^^^ b <<< (i + 1) := by
    rw [crcShift_xor, msb_shiftLeft_byte b h, ← BitVec.shiftLeft_add]
  have hlast : b <<< 8 = 0#8 := by simp
  unfold crcByte
  rw [show r ^^^ b = r ^^^ b <<< 0 by simp, hshift _ (by omega), hshift _ (by omega), hshift _ (by omega),
    hshift _ (by omega), hshift _ (by omega), hshift _ (by omega), hshift _ (by omega), hshift _ (by omega), hlast,
    BitVec.xor_zero]
  rfl

/-! ### The receiver (R164) -/

theorem receiveByte_start {s : State} (hs : s.link.receiver = .hunting) :
    s.receiveByte 0xA5 = s.setReceiver .length := by
  unfold State.receiveByte
  rw [hs]
  rfl

theorem receiveByte_length {s : State} {len : Byte} (hs : s.link.receiver = .length) (h : len.toNat ≤ 60) :
    s.receiveByte len = s.setReceiver (.body len []) := by
  unfold State.receiveByte
  rw [hs]
  exact if_neg (Nat.not_lt.mpr h)

theorem receiveByte_tooLong {s : State} {len : Byte} (hs : s.link.receiver = .length) (h : 60 < len.toNat) :
    s.receiveByte len = s.setReceiver .hunting := by
  unfold State.receiveByte
  rw [hs]
  exact if_pos h

theorem setReceiver_setReceiver (s : State) (q r : Receiver) : (s.setReceiver q).setReceiver r = s.setReceiver r := rfl

theorem setReceiver_self {s : State} {r : Receiver} (h : s.link.receiver = r) : s.setReceiver r = s := by
  subst h
  rfl

/-- Bytes before a start byte are discarded, and the receiver then waits for the length. -/
theorem receive_start {s : State} {before : List Byte} (rest : List Byte) (hs : s.link.receiver = .hunting)
    (hb : (0xA5 : Byte) ∉ before) :
    (before ++ 0xA5 :: rest).foldl State.receiveByte s = rest.foldl State.receiveByte (s.setReceiver .length) := by
  rw [List.foldl_append, hunting_fold s before hs hb, List.foldl_cons, receiveByte_start hs]

/-- A readable length begins the body of a frame. -/
theorem receive_length {s : State} {len : Byte} (rest : List Byte) (hs : s.link.receiver = .length)
    (h : len.toNat ≤ 60) :
    (len :: rest).foldl State.receiveByte s = rest.foldl State.receiveByte (s.setReceiver (.body len [])) := by
  rw [List.foldl_cons, receiveByte_length hs h]

/-- A length above 60 discards the frame. -/
theorem receive_tooLong {s : State} {len : Byte} (rest : List Byte) (hs : s.link.receiver = .length)
    (h : 60 < len.toNat) :
    (len :: rest).foldl State.receiveByte s = rest.foldl State.receiveByte (s.setReceiver .hunting) := by
  rw [List.foldl_cons, receiveByte_tooLong hs h]

/-- The gap timer restarts with the bytes. -/
def State.gapRestarted (s : State) : State := { s with link := { s.link with gap := 0 } }

theorem exec_frameReceived (bytes : List Byte) (s : State) :
    exec (.frameReceived bytes) s = .next (bytes.foldl State.receiveByte s.gapRestarted).finish := rfl

/-- The three places a frame can go on from: its start byte, its length, or a body already begun. -/
theorem receive_frame {s : State} {code tag check : Byte} {payload before got bytes : List Byte}
    (hl : payload.length ≤ 60) (hb : (0xA5 : Byte) ∉ before) (hne : bytes ≠ [])
    (h : s.link.receiver = .hunting ∧
        bytes = before ++ 0xA5 :: byte payload.length :: code :: tag :: (payload ++ [check]) ∨
      s.link.receiver = .length ∧ bytes = byte payload.length :: code :: tag :: (payload ++ [check]) ∨
      s.link.receiver = .body (byte payload.length) got ∧ got ++ bytes = code :: tag :: (payload ++ [check])) :
    bytes.foldl State.receiveByte s = (s.setReceiver .hunting).frameComplete
      { code := code, tag := tag, payload := payload
        good := check = crc8 (byte payload.length :: code :: tag :: payload) } := by
  have hlen : (byte payload.length).toNat = payload.length := by
    unfold byte
    rw [BitVec.toNat_ofNat]
    omega
  have hbody (t : State) (ht : t.link.receiver = .body (byte payload.length) []) :
      (code :: tag :: (payload ++ [check])).foldl State.receiveByte t = (t.setReceiver .hunting).frameComplete
        { code := code, tag := tag, payload := payload
          good := check = crc8 (byte payload.length :: code :: tag :: payload) } :=
    body_full ht (by simp) hlen.symm rfl
  rcases h with ⟨hs, rfl⟩ | ⟨hs, rfl⟩ | ⟨hs, hgot⟩
  · rw [receive_start _ hs hb, receive_length _ rfl (hlen.le.trans hl), hbody _ rfl]
    rfl
  · rw [receive_length _ hs (hlen.le.trans hl), hbody _ rfl]
    rfl
  · exact body_full hs hne hlen.symm hgot

theorem frameComplete_full {s : State} {f : Frame} (h : s.link.buffer.isSome = true) : s.frameComplete f = s :=
  if_pos h

theorem frameComplete_bad {s : State} {f : Frame} (h : s.link.buffer.isSome = false) (hf : f.good = false) :
    s.frameComplete f = { s with link := { s.link with buffer := some f } } := by
  unfold State.frameComplete
  rw [if_neg (by simp [h]), if_neg (by simp [hf])]

theorem frameComplete_good {s : State} {f : Frame} (h : s.link.buffer.isSome = false) (hf : f.good = true) :
    s.frameComplete f = { s with
      link := { s.link with
        buffer := some f
        supervision := if s.link.supervisionTime = 0 then none else some 0
        autonomy := false }
      attention := if s.link.autonomy then { s.attention with modeChange := true } else s.attention
      planner := if s.link.autonomy then { s.planner with replan := true } else s.planner } := by
  unfold State.frameComplete State.validFrame
  rw [if_neg (by simp [h]), if_pos hf]
  dsimp only
  cases s.link.autonomy <;> rfl

/-- Settles O9: `receive_frame` for the bytes that complete a frame, `body_partial` for those that do not. -/
theorem frameReceivedBuffers : Obligations.FrameReceivedBuffers := by
  refine ⟨fun s code tag check payload before got bytes hl hb hne h => ?complete,
    fun s before got bytes len receiver hb h => ?begun, fun s got bytes len hs hlen => ?joined,
    fun s before bytes len hs hb hlen => ?tooLong, fun bytes b => ⟨rfl, ?check⟩⟩
  case complete =>
    rw [exec_frameReceived, receive_frame (s := s.gapRestarted) hl hb hne h]
    congr 2
    by_cases hbuf : s.link.buffer.isSome = true
    · rw [if_pos hbuf, frameComplete_full (s := s.gapRestarted.setReceiver .hunting) hbuf]
      rfl
    rw [if_neg hbuf]
    rw [Bool.not_eq_true] at hbuf
    by_cases hcheck : check = crc8 (byte payload.length :: code :: tag :: payload)
    · rw [if_pos hcheck, frameComplete_good (s := s.gapRestarted.setReceiver .hunting) hbuf (decide_eq_true hcheck),
        decide_eq_true hcheck]
      rfl
    · rw [if_neg hcheck, frameComplete_bad (s := s.gapRestarted.setReceiver .hunting) hbuf (decide_eq_false hcheck),
        decide_eq_false hcheck]
      rfl
  case begun =>
    rw [exec_frameReceived]
    congr 2
    show _ = s.gapRestarted.setReceiver receiver
    rcases h with ⟨hs, rfl, rfl⟩ | ⟨hs, rfl, rfl⟩ | ⟨hs, hlen, rfl, rfl⟩ | ⟨hs, hlen, rfl, rfl⟩ |
      ⟨hs, hlen, hgot, rfl, rfl⟩ | ⟨hs, hlen, hgot, rfl, rfl⟩
    · rw [hunting_fold s.gapRestarted _ hs hb, setReceiver_self (s := s.gapRestarted) hs]
    · rw [receive_start (s := s.gapRestarted) [] hs hb]
      rfl
    · rw [receive_start (s := s.gapRestarted) [len] hs hb, receive_tooLong [] rfl hlen]
      rfl
    · rw [receive_tooLong (s := s.gapRestarted) [] hs hlen]
      rfl
    · rw [receive_start (s := s.gapRestarted) _ hs hb, receive_length _ rfl hlen, body_partial len got _ [] rfl hgot]
      rfl
    · rw [receive_length (s := s.gapRestarted) _ hs hlen, body_partial len got _ [] rfl hgot]
      rfl
  case joined =>
    rw [exec_frameReceived, body_partial len bytes s.gapRestarted got hs hlen]
    rfl
  case tooLong =>
    rw [exec_frameReceived, exec_frameReceived, receive_start (s := s.gapRestarted) _ hs hb, receive_tooLong _ rfl hlen,
      setReceiver_setReceiver, setReceiver_self (s := s.gapRestarted) hs]
  case check =>
    rw [crc8, List.foldl_append]
    exact crcByte_eq_feed _ b

/-- Settles O10. -/
theorem linkTimeouts : Obligations.LinkTimeouts := by
  refine ⟨fun s => rfl, fun s c hc ha => ?_⟩
  show Host.Outcome.next s.supervisionExpires.finish = _
  unfold State.supervisionExpires
  rw [if_pos (by simp [hc, ha])]
  rfl

end Sys2Proof.Machine

/-! Frames taken out of the receive buffer, and the layouts of requests and replies (11 section 12.1; 12 section 13.2). -/

namespace Sys2Proof.Machine

/-! ### The request table (R180) -/

theorem u16_eq_append (hi lo : Byte) : u16 hi lo = (hi ++ lo).toNat := by
  rw [BitVec.toNat_append, ← Nat.shiftLeft_add_eq_or_of_lt lo.isLt, Nat.shiftLeft_eq]
  rfl

/-- The codes of the requests and the payload lengths they take. -/
def requestTable : List (Nat × Nat) :=
  [(0x01, 12), (0x02, 15), (0x03, 2), (0x04, 2), (0x05, 2), (0x06, 2), (0x07, 1), (0x08, 22), (0x09, 0), (0x0A, 3),
   (0x0B, 7), (0x0C, 1), (0x0D, 9), (0x0E, 1), (0x0F, 1), (0x10, 3), (0x11, 0), (0x12, 1), (0x13, 0), (0x14, 0),
   (0x14, 1), (0x15, 2), (0x16, 5)]

/-- A parser reads the payloads of the lengths that fit, and only into requests of one code. -/
def ParsesAs (parse : List Byte → Option Request) (code : Byte) (fits : Nat → Prop) : Prop :=
  (∀ p, fits p.length → ∃ r, parse p = some r ∧ r.code = code) ∧ ∀ p, ¬ fits p.length → parse p = none

theorem parsePlace_parses : ParsesAs parsePlace 0x01 (· = 12) := by
  refine ⟨fun | [_, _, _, _, _, _, _, _, _, _, _, _], _ => ⟨_, rfl, rfl⟩, fun p h => ?_⟩
  unfold parsePlace
  split
  · exact absurd rfl h
  · rfl

theorem parseAmend_parses : ParsesAs parseAmend 0x02 (· = 15) := by
  refine ⟨fun | [_, _, _, _, _, _, _, _, _, _, _, _, _, _, _], _ => ⟨_, rfl, rfl⟩, fun p h => ?_⟩
  unfold parseAmend
  split
  · exact absurd rfl h
  · rfl

theorem parseHandle_parses {k : RawHandle → Request} {code : Byte} (hk : ∀ h, (k h).code = code) :
    ParsesAs (parseHandle k) code (· = 2) := by
  refine ⟨fun | [_, _], _ => ⟨_, rfl, hk _⟩, fun p h => ?_⟩
  unfold parseHandle
  split
  · exact absurd rfl h
  · rfl

theorem parseByte_parses {k : Nat → Request} {code : Byte} (hk : ∀ n, (k n).code = code) :
    ParsesAs (parseByte k) code (· = 1) := by
  refine ⟨fun | [_], _ => ⟨_, rfl, hk _⟩, fun p h => ?_⟩
  unfold parseByte
  split
  · exact absurd rfl h
  · rfl

theorem parseEmpty_parses (r : Request) : ParsesAs (parseEmpty r) r.code (· = 0) := by
  refine ⟨fun | [], _ => ⟨_, rfl, rfl⟩, fun p h => ?_⟩
  unfold parseEmpty
  split
  · exact absurd rfl h
  · rfl

theorem parseFind_parses : ParsesAs parseFind 0x06 (· = 2) := by
  refine ⟨fun | [_, _], _ => ⟨_, rfl, rfl⟩, fun p h => ?_⟩
  unfold parseFind
  split
  · exact absurd rfl h
  · rfl

theorem walkRequest_code (n : Nat) : (walkRequest n).code = 0x07 := by
  unfold walkRequest
  split <;> rfl

theorem parseSetSite_parses : ParsesAs parseSetSite 0x08 (· = 22) := by
  refine ⟨fun | [_, _, _, _, _, _, _, _, _, _, _, _, _, _, _, _, _, _, _, _, _, _], _ => ⟨_, rfl, rfl⟩, fun p h => ?_⟩
  unfold parseSetSite
  split
  · exact absurd rfl h
  · rfl

theorem parseSetLink_parses : ParsesAs parseSetLink 0x0A (· = 3) := by
  refine ⟨fun | [_, _, _], _ => ⟨_, rfl, rfl⟩, fun p h => ?_⟩
  unfold parseSetLink
  split
  · exact absurd rfl h
  · rfl

theorem parseSetPost_parses : ParsesAs parseSetPost 0x0B (· = 7) := by
  refine ⟨fun | [_, _, _, _, _, _, _], _ => ⟨_, rfl, rfl⟩, fun p h => ?_⟩
  unfold parseSetPost
  split
  · exact absurd rfl h
  · rfl

theorem parseSetClass_parses : ParsesAs parseSetClass 0x0D (· = 9) := by
  refine ⟨fun | [_, _, _, _, _, _, _, _, _], _ => ⟨_, rfl, rfl⟩, fun p h => ?_⟩
  unfold parseSetClass
  split
  · exact absurd rfl h
  · rfl

theorem parseSetTime_parses : ParsesAs parseSetTime 0x10 (· = 3) := by
  refine ⟨fun | [_, _, _], _ => ⟨_, rfl, rfl⟩, fun p h => ?_⟩
  unfold parseSetTime
  split
  · exact absurd rfl h
  · rfl

theorem parseReadAttention_parses : ParsesAs parseReadAttention 0x14 (· ≤ 1) := by
  refine ⟨fun | [], _ => ⟨_, rfl, rfl⟩ | [_], _ => ⟨_, rfl, rfl⟩, fun p h => ?_⟩
  unfold parseReadAttention
  split
  · exact absurd (Nat.zero_le 1) h
  · exact absurd le_rfl h
  · rfl

theorem parseClearAttention_parses : ParsesAs parseClearAttention 0x15 (· = 2) := by
  refine ⟨fun | [_, _], _ => ⟨_, rfl, rfl⟩, fun p h => ?_⟩
  unfold parseClearAttention
  split
  · exact absurd rfl h
  · rfl

theorem parseSetMasks_parses : ParsesAs parseSetMasks 0x16 (· = 5) := by
  refine ⟨fun | [_, _, _, _, _], _ => ⟨_, rfl, rfl⟩, fun p h => ?_⟩
  unfold parseSetMasks
  split
  · exact absurd rfl h
  · rfl

/-- What is read from a frame of this code and payload stands in the request table, and has that code. -/
def ReadsTable (code : Byte) (payload : List Byte) (o : Option Request) : Prop :=
  (o.isSome = true ↔ (code.toNat, payload.length) ∈ requestTable) ∧ ∀ r, o = some r → r.code = code

/-- A parser whose lengths are those of its code's rows reads by the table. -/
theorem ParsesAs.readsTable {parse : List Byte → Option Request} {k : Byte} {fits : Nat → Prop} {code : Byte}
    {payload : List Byte} (hp : ParsesAs parse k fits) (hk : code.toNat = k.toNat)
    (hfits : ∀ n, fits n ↔ (k.toNat, n) ∈ requestTable) : ReadsTable code payload (parse payload) := by
  obtain rfl : code = k := BitVec.eq_of_toNat_eq hk
  obtain ⟨full, other⟩ := hp
  by_cases h : fits payload.length
  · obtain ⟨r, hr, hcode⟩ := full payload h
    rw [hr]
    exact ⟨⟨fun _ => (hfits _).mp h, fun _ => rfl⟩, fun _ hq => Option.some.inj hq ▸ hcode⟩
  · rw [other payload h]
    exact ⟨⟨nofun, fun q => absurd ((hfits _).mpr q) h⟩, nofun⟩

theorem requestTable_codes {k n : Nat} (h : (k, n) ∈ requestTable) : 1 ≤ k ∧ k ≤ 22 := by
  have hall : ∀ x ∈ requestTable, 1 ≤ x.1 ∧ x.1 ≤ 22 := by decide
  exact hall _ h

/-- The request of a frame is read by the table of codes and lengths. -/
theorem parseRequest_readsTable (code : Byte) (payload : List Byte) :
    ReadsTable code payload (parseRequest code payload) := by
  unfold parseRequest
  split
  case h_1 h => exact parsePlace_parses.readsTable h (by simp [requestTable])
  case h_2 h => exact parseAmend_parses.readsTable h (by simp [requestTable])
  case h_3 h => exact (parseHandle_parses (code := 0x03) fun _ => rfl).readsTable h (by simp [requestTable])
  case h_4 h => exact (parseHandle_parses (code := 0x04) fun _ => rfl).readsTable h (by simp [requestTable])
  case h_5 h => exact (parseHandle_parses (code := 0x05) fun _ => rfl).readsTable h (by simp [requestTable])
  case h_6 h => exact parseFind_parses.readsTable h (by simp [requestTable])
  case h_7 h => exact (parseByte_parses walkRequest_code).readsTable h (by simp [requestTable])
  case h_8 h => exact parseSetSite_parses.readsTable h (by simp [requestTable])
  case h_9 h => exact (parseEmpty_parses .readSite).readsTable h (by simp [requestTable, Request.code])
  case h_10 h => exact parseSetLink_parses.readsTable h (by simp [requestTable])
  case h_11 h => exact parseSetPost_parses.readsTable h (by simp [requestTable])
  case h_12 h => exact (parseByte_parses (code := 0x0C) fun _ => rfl).readsTable h (by simp [requestTable])
  case h_13 h => exact parseSetClass_parses.readsTable h (by simp [requestTable])
  case h_14 h => exact (parseByte_parses (code := 0x0E) fun _ => rfl).readsTable h (by simp [requestTable])
  case h_15 h => exact (parseByte_parses (code := 0x0F) fun _ => rfl).readsTable h (by simp [requestTable])
  case h_16 h => exact parseSetTime_parses.readsTable h (by simp [requestTable])
  case h_17 h => exact (parseEmpty_parses .readTime).readsTable h (by simp [requestTable, Request.code])
  case h_18 h => exact (parseByte_parses (code := 0x12) fun _ => rfl).readsTable h (by simp [requestTable])
  case h_19 h => exact (parseEmpty_parses .replan).readsTable h (by simp [requestTable, Request.code])
  case h_20 h => exact parseReadAttention_parses.readsTable h (by simp [requestTable]; omega)
  case h_21 h => exact parseClearAttention_parses.readsTable h (by simp [requestTable])
  case h_22 h => exact parseSetMasks_parses.readsTable h (by simp [requestTable])
  case h_23 =>
    refine ⟨⟨nofun, fun h => ?_⟩, nofun⟩
    have := requestTable_codes h
    grind

/-! ### The buffered frame (R165, R166) -/

theorem exec_frameTaken {s : State} {f : Frame} (hb : s.link.buffer = some f) (hp : s.link.inProgress = none) :
    exec .frameTaken s = .next (s.takeFrame f).finish := by
  show Host.Outcome.next _ = _
  rw [hb, hp]

theorem exec_frameTaken_idle {s : State} (h : s.link.buffer = none ∨ s.link.inProgress ≠ none) :
    exec .frameTaken s = .next s := by
  show Host.Outcome.next _ = _
  congr 1
  split
  case h_1 hb hp => exact absurd h (by simp [hb, hp])
  case h_2 => rfl

theorem takeFrame_bad {s : State} {f : Frame} (h : f.good = false) :
    s.takeFrame f = s.emptyBuffer.refuseFrame f .checkError := if_pos (by simp [h])

theorem takeFrame_good {s : State} {f : Frame} (h : f.good = true) :
    s.takeFrame f = match parseRequest f.code f.payload with
      | none => s.emptyBuffer.refuseFrame f .badRequest
      | some r => if s.link.blocked r then s else s.emptyBuffer.takeRequest r f.tag := if_neg (by simp [h])

theorem blocked_iff {l : Link} {r : Request} : l.blocked r = true ↔
    ∃ c, r = .change c ∧ l.postingEnabled = true ∧ (∀ w ∈ l.posting, w.handle.slot ≠ c.handle.slot) ∧
      2 ≤ l.posting.length := by
  cases r with
  | change c => simp [Link.blocked, Link.wouldPost, Link.sameSlot, Config.postingSlots, and_assoc]
  | _ => simp [Link.blocked, Link.wouldPost]

/-- The judging of the buffered frame: its check, its table row, and whether the port would post it with no slot left. -/
theorem frameTaken_judged (s : State) (f : Frame) (hb : s.link.buffer = some f) (hp : s.link.inProgress = none) :
    (f.good = false → exec .frameTaken s = .next (s.emptyBuffer.refuseFrame f .checkError).finish) ∧
    (f.good = true → parseRequest f.code f.payload = none →
      exec .frameTaken s = .next (s.emptyBuffer.refuseFrame f .badRequest).finish) ∧
    (∀ r, f.good = true → parseRequest f.code f.payload = some r →
      (s.link.blocked r = true → exec .frameTaken s = .next s.finish) ∧
      (s.link.blocked r = false → exec .frameTaken s = exec (r.command f.tag) s.emptyBuffer)) := by
  rw [exec_frameTaken hb hp]
  refine ⟨fun hbad => by rw [takeFrame_bad hbad], fun hgood hr => by rw [takeFrame_good hgood, hr], fun r hgood hr => ?_⟩
  rw [takeFrame_good hgood, hr, exec_command]
  dsimp only
  exact ⟨fun hbl => by rw [if_pos hbl], fun hbl => by rw [if_neg (by simp [hbl])]⟩

/-- Settles O11: `frameTaken_judged` for the buffered frame, `parseRequest_readsTable` for the codes and lengths; the
layouts of the fields are the parsers' own clauses. -/
theorem frameTakenJudged : Obligations.FrameTakenJudged := by
  refine ⟨⟨fun s f hb hp => ?judged, fun s h => exec_frameTaken_idle h⟩,
    ⟨?layouts, ?setSite, fun code payload => (parseRequest_readsTable code payload).1, fun r => rfl⟩,
    fun code payload r => (parseRequest_readsTable code payload).2 r, ?changes, fun h => rfl, ?statuses⟩
  case judged =>
    obtain ⟨hbad, hnone, hsome⟩ := frameTaken_judged s f hb hp
    refine ⟨hbad, hnone, fun r hgood hr => ?_⟩
    obtain ⟨hblocked, htaken⟩ := hsome r hgood hr
    refine ⟨fun h => hblocked (blocked_iff.mpr h), fun h => htaken ?_⟩
    rw [← Bool.not_eq_true, blocked_iff]
    rintro ⟨c, rfl, hen, hslot, hfull⟩
    rcases h c rfl with hdis | ⟨w, hw, hsame⟩ | hroom
    · simp [hen] at hdis
    · exact hslot w hw hsame
    · omega
  case layouts =>
    intro a b c d e f g h i j k l m n o
    simp only [← u16_eq_append, ← s16_eq_toInt]
    have hform (ha : a ≠ 2) : walkRequest a.toNat = .walkStart a.toNat :=
      if_neg fun q => ha (BitVec.eq_of_toNat_eq q)
    exact ⟨rfl, rfl, rfl, rfl, rfl, rfl, rfl, fun ha => congrArg some (hform ha), rfl, rfl, rfl, rfl, rfl, rfl, rfl, rfl,
      rfl, rfl, rfl, rfl, rfl, rfl, rfl⟩
  case setSite =>
    intros
    simp only [← u16_eq_append, ← s16_eq_toInt]
    rfl
  case changes => exact ⟨fun _ => ⟨rfl, rfl⟩, fun _ => ⟨rfl, rfl⟩, fun _ => ⟨rfl, rfl⟩⟩
  case statuses => decide

end Sys2Proof.Machine

/-! Requests at the port: PLACE, the changes, LOOKUP, FIND and the walks (01 sections 2.3 to 2.5; 11 sections 12.2 to
12.4). -/

namespace Sys2Proof.Machine

/-! ### Values in their sets -/

theorem vehicleOk_iff (v : Nat) : vehicleOk v = true ↔ 1 ≤ v ∧ v ≤ 65534 := by
  simp [vehicleOk]

theorem minuteOk_iff (m : Nat) : minuteOk m = true ↔ m ≤ 10079 := by
  simp [minuteOk, Config.weekMinutes]
  omega

theorem tierOf_isNone_iff (t : Nat) : (tierOf? t).isNone = true ↔ 2 < t := by
  by_cases h : t ≤ 2
  · obtain ⟨x, hx⟩ := tierOf_some h
    simp [hx, h]
  · unfold tierOf?
    split <;> simp_all

theorem classOf_isNone_iff (c : Nat) : (classOf? c).isNone = true ↔ 15 < c := by
  unfold classOf?
  split <;> simp <;> omega

theorem classUndefined_iff (s : State) (c : Nat) :
    s.classUndefined c = true ↔ ∀ n : Fin 16, c = n → s.classes[n].params = none := by
  unfold State.classUndefined
  by_cases h : c < 16
  · rw [classOf_eq (n := ⟨c, h⟩) rfl]
    simp only [Option.bind_some, Option.isNone_iff_eq_none]
    refine ⟨fun q n hn => ?_, fun q => q ⟨c, h⟩ rfl⟩
    obtain rfl : n = ⟨c, h⟩ := Fin.ext hn.symm
    exact q
  · rw [classOf_none (by omega)]
    simp only [Option.bind_none, Option.isNone_none, true_iff]
    intro n hn
    omega

/-! ### Checks in their order -/

/-- What the port does with a request its checks judge: the first that fails refuses it. -/
def judged (checks : List (Bool × Status)) (refuse : Status → State) (accept : State) : State :=
  (firstRefusal checks).elim accept refuse

theorem judged_nil (refuse : Status → State) (accept : State) : judged [] refuse accept = accept := rfl

theorem judged_cons (b : Bool) (x : Status) (l : List (Bool × Status)) (refuse : Status → State) (accept : State) :
    judged ((b, x) :: l) refuse accept = if b = true then refuse x else judged l refuse accept := by
  cases b <;> rfl

theorem placeRequest_judged (s : State) (f : PlaceFields) :
    s.placeRequest f = judged (s.placeChecks f) s.refuse (s.presentLink (.create f)) := by
  unfold State.placeRequest judged
  cases firstRefusal (s.placeChecks f) <;> rfl

theorem postOrRefuse_judged (s : State) (c : Change) :
    s.postOrRefuse c = judged (s.changeChecks c) s.refuse (s.postChange c) := by
  unfold State.postOrRefuse judged
  cases firstRefusal (s.changeChecks c) <;> rfl

theorem changeUnposted_judged (s : State) (c : Change) :
    s.changeUnposted c = judged (s.directoryChecks c) s.refuse (s.presentLink c.access) := by
  unfold State.changeUnposted judged
  cases firstRefusal (s.directoryChecks c) <;> rfl

/-- At a ready port a request that is no change is carried out. -/
theorem exec_ready {s : State} (h : s.ready) {r : Request} (hr : ∀ c, r ≠ .change c) (tag : Byte) :
    exec (r.command tag) s = .next ((s.beginRequest r tag).requestEffect r).finish := by
  rw [exec_command, State.takeRequest, carryOut_ready h]
  exact hr

theorem exec_postable {s : State} {c : Change} (h : s.postable c) (tag : Byte) :
    exec ((Request.change c).command tag) s = .next ((s.beginRequest (.change c) tag).postOrRefuse c).finish := by
  rw [exec_command, State.takeRequest, changeRequest_postable h]

theorem exec_unposted {s : State} (h : s.unposted) (c : Change) (tag : Byte) :
    exec ((Request.change c).command tag) s = .next ((s.beginRequest (.change c) tag).changeUnposted c).finish := by
  rw [exec_command, State.takeRequest, changeRequest_unposted h]

/-! ### PLACE -/

/-- PLACE's field test. -/
theorem placeBadField_iff (f : PlaceFields) :
    (!vehicleOk f.vehicle || (tierOf? f.tier).isNone || !minuteOk f.departure || (classOf? f.cls).isNone ||
        !f.earliest?.all minuteOk) = true ↔
      f.vehicle = 0 ∨ 65534 < f.vehicle ∨ 2 < f.tier ∨ 10079 < f.departure ∨ 15 < f.cls ∨
        (f.presence.getLsbD 0 = true ∧ 10079 < f.earliest) := by
  have hearliest : (!f.earliest?.all minuteOk) = true ↔ f.presence.getLsbD 0 = true ∧ 10079 < f.earliest := by
    unfold PlaceFields.earliest?
    cases f.presence.getLsbD 0 <;> simp [← Bool.not_eq_true, minuteOk_iff]
  simp only [Bool.or_eq_true, tierOf_isNone_iff, classOf_isNone_iff, hearliest, Bool.not_eq_true', ← Bool.not_eq_true,
    vehicleOk_iff, minuteOk_iff]
  grind

/-- Settles O12: PLACE's four checks, one after the other. -/
theorem placeAtPort : Obligations.PlaceAtPort := by
  intro s tag f h
  rw [show Instr.place tag f = (Request.place f).command tag from rfl, exec_ready (r := .place f) h nofun]
  show Host.Outcome.next ((s.beginRequest _ tag).placeRequest f).finish = _
  rw [placeRequest_judged, State.placeChecks]
  simp only [judged_cons, judged_nil, beginRequest_refuse, beginRequest_present]
  congr 2
  exact if_congr (by simp [State.beginRequest]) rfl
    (if_congr (placeBadField_iff f) rfl (if_congr Iff.rfl rfl (if_congr (classUndefined_iff s f.cls) rfl rfl)))

/-! ### AMEND's fields (R11, R12, R180) -/

theorem locked_iff (f : AmendFields) (x : OrderState) : AmendFields.locked f x = true ↔
    (f.mask.getLsbD 2 = true ∧ (x = .heating ∨ x = .holding)) ∨
      (f.mask.getLsbD 4 = true ∧ (x = .waiting ∨ x = .heating ∨ x = .holding ∨ x = .stalled)) := by
  unfold AmendFields.locked AmendFields.cls? AmendFields.vehicle?
  cases f.mask.getLsbD 2 <;> cases f.mask.getLsbD 4 <;> simp [or_assoc]

theorem amendBadField_iff (f : AmendFields) : AmendFields.badField f = true ↔
    (f.mask.getLsbD 4 = true ∧ (f.vehicle = 0 ∨ 65534 < f.vehicle)) ∨
      (f.mask.getLsbD 3 = true ∧ 2 < f.tier) ∨
      (f.mask.getLsbD 0 = true ∧ 10079 < f.departure) ∨
      (f.mask.getLsbD 2 = true ∧ 15 < f.cls) ∨
      (f.mask.getLsbD 5 = true ∧ 10079 < f.earliest) ∨
      (f.mask.getLsbD 5 = true ∧ f.mask.getLsbD 6 = true) ∨
      (f.mask.getLsbD 7 = true ∧ f.mask.getLsbD 8 = true) := by
  have hvehicle : (!f.vehicle?.all vehicleOk) = true ↔ f.mask.getLsbD 4 = true ∧ (f.vehicle = 0 ∨ 65534 < f.vehicle) := by
    unfold AmendFields.vehicle?
    cases f.mask.getLsbD 4 <;> simp [← Bool.not_eq_true, vehicleOk_iff]
    omega
  have htier : f.tier?.any (fun t => (tierOf? t).isNone) = true ↔ f.mask.getLsbD 3 = true ∧ 2 < f.tier := by
    unfold AmendFields.tier?
    cases f.mask.getLsbD 3 with
    | false => simp
    | true => simpa using tierOf_isNone_iff f.tier
  have hdeparture : (!f.departure?.all minuteOk) = true ↔ f.mask.getLsbD 0 = true ∧ 10079 < f.departure := by
    unfold AmendFields.departure?
    cases f.mask.getLsbD 0 <;> simp [← Bool.not_eq_true, minuteOk_iff]
  have hcls : f.cls?.any (fun c => (classOf? c).isNone) = true ↔ f.mask.getLsbD 2 = true ∧ 15 < f.cls := by
    unfold AmendFields.cls?
    cases f.mask.getLsbD 2 with
    | false => simp
    | true => simpa using classOf_isNone_iff f.cls
  have hearliest : (!f.setEarliest?.all minuteOk) = true ↔ f.mask.getLsbD 5 = true ∧ 10079 < f.earliest := by
    unfold AmendFields.setEarliest?
    cases f.mask.getLsbD 5 <;> simp [← Bool.not_eq_true, minuteOk_iff]
  have hboth : (f.setEarliest?.isSome && f.clearsEarliest) = true ↔ f.mask.getLsbD 5 = true ∧ f.mask.getLsbD 6 = true := by
    unfold AmendFields.setEarliest? AmendFields.clearsEarliest
    cases f.mask.getLsbD 5 <;> simp
  have hholds : (f.setHold?.isSome && f.clearsHold) = true ↔ f.mask.getLsbD 7 = true ∧ f.mask.getLsbD 8 = true := by
    unfold AmendFields.setHold? AmendFields.clearsHold
    cases f.mask.getLsbD 7 <;> simp
  unfold AmendFields.badField
  simp only [Bool.or_eq_true, hvehicle, htier, hdeparture, hcls, hearliest, hboth, hholds, or_assoc]

/-- The clamps an AMEND shows in its own values. -/
theorem amendClampsSeen_iff (s : State) (f : AmendFields) : s.amendClampsSeen f = true ↔
    (f.mask.getLsbD 1 = true ∧ (f.target < 100 ∨ 280 < f.target)) ∨ (f.mask.getLsbD 7 = true ∧ 60 < f.hold) ∨
      (f.mask.getLsbD 5 = true ∧ f.mask.getLsbD 0 = true ∧ 0 ≤ aheadMinutes s.clock.minute f.earliest ∧
        aheadMinutes s.clock.minute f.departure < aheadMinutes s.clock.minute f.earliest) := by
  have htarget : f.target?.any (fun t => decide (t < 100) || decide (280 < t)) = true ↔
      f.mask.getLsbD 1 = true ∧ (f.target < 100 ∨ 280 < f.target) := by
    unfold AmendFields.target?
    cases f.mask.getLsbD 1 <;> simp
  have hhold : f.setHold?.any (fun h => decide (60 < h)) = true ↔ f.mask.getLsbD 7 = true ∧ 60 < f.hold := by
    unfold AmendFields.setHold?
    cases f.mask.getLsbD 7 <;> simp
  unfold State.amendClampsSeen
  simp only [Bool.or_eq_true, htarget, hhold, or_assoc]
  refine or_congr_right (or_congr_right ?_)
  unfold AmendFields.setEarliest? AmendFields.departure?
  cases f.mask.getLsbD 5 <;> cases f.mask.getLsbD 0 <;> simp [clampsEarliest_iff]

/-! ### The changes (R11, R14, R16, R29, R168) -/

theorem postChange_eq (s : State) (c : Change) (tag : Byte) :
    (s.beginRequest (.change c) tag).postChange c = s.postedAs c tag (s.postedClamped c) := rfl

/-- Settles O13: the checks of each change, one after the other, and then the posting. -/
theorem changesPosted : Obligations.ChangesPosted := by
  refine ⟨fun s tag f clamped h hclamped => ?amend, fun s tag h => ⟨fun hp => ?withdraw, fun hp => ?release⟩⟩
  case amend =>
    obtain rfl : s.postedClamped (.amend f) = clamped :=
      Bool.eq_iff_iff.mpr ((amendClampsSeen_iff s f).trans hclamped.symm)
    rw [show Instr.amend tag f = (Request.change (.amend f)).command tag from rfl, exec_postable h,
      postOrRefuse_judged, State.changeChecks, State.amendDirectoryChecks, State.amendFieldChecks]
    simp only [List.cons_append, List.nil_append, judged_cons, judged_nil, beginRequest_refuse, postChange_eq,
      decide_eq_true_eq]
    congr 2
    exact if_congr Iff.rfl rfl (if_congr Iff.rfl rfl (if_congr Iff.rfl rfl (if_congr Iff.rfl rfl
      (if_congr (option_any_iff _ _) rfl (if_congr (option_any_iff _ _) rfl rfl)))))
  case withdraw =>
    rw [show Instr.withdraw tag h = (Request.change (.withdraw h)).command tag from rfl, exec_postable hp,
      postOrRefuse_judged, State.changeChecks]
    simp only [judged_cons, judged_nil, beginRequest_refuse, postChange_eq, decide_eq_true_eq]
    rw [show (s.beginRequest (.change (.withdraw h)) tag).store = s.store from rfl]
    cases s.store.rawVerdict h <;> rfl
  case release =>
    rw [show Instr.release tag h = (Request.change (.release h)).command tag from rfl, exec_postable hp,
      postOrRefuse_judged, State.changeChecks]
    simp only [judged_cons, judged_nil, beginRequest_refuse, postChange_eq, decide_eq_true_eq]
    rw [show (s.beginRequest (.change (.release h)) tag).store = s.store from rfl]
    cases s.store.rawVerdict h <;> rfl

/-! ### LOOKUP and FIND (R33, R170) -/

/-- Settles O15. -/
theorem lookupFindAtPort : Obligations.LookupFindAtPort := by
  intro s tag
  refine ⟨fun r h => ?lookup, fun v h => ?find⟩
  case lookup =>
    rw [show Instr.lookup tag r = (Request.lookup r).command tag from rfl, exec_ready (r := .lookup r) h nofun]
    show Host.Outcome.next ((s.beginRequest _ tag).lookupRequest r).finish = _
    unfold State.lookupRequest
    cases r.handle? with
    | none => rfl
    | some x => rfl
  case find =>
    rw [show Instr.find tag v = (Request.find v).command tag from rfl, exec_ready (r := .find v) h nofun]
    show Host.Outcome.next ((s.beginRequest _ tag).findRequest v).finish = _
    unfold State.findRequest
    congr 2
    exact if_congr (vehicleOk_iff v) rfl rfl

/-! ### The walks (R171, R172) -/

theorem exec_walkStart {s : State} (h : s.ready) (tag : Byte) (form : Nat) :
    exec (.walkStart tag form) s = .next ((s.beginRequest (.walkStart form) tag).walkStartRequest form).finish :=
  exec_ready (r := .walkStart form) h nofun tag

theorem exec_walkNext {s : State} (h : s.ready) (tag : Byte) :
    exec (.walkNext tag) s = .next (s.beginRequest .walkNext tag).walkNextRequest.finish :=
  exec_ready (r := .walkNext) h nofun tag

theorem slotStep_some {s : State} {r : Request} {tag : Byte} {above : Fin 64 → Bool} {n : Fin 64}
    (h : s.store.nextOccupied above = some n) :
    (s.beginRequest r tag).slotStep above = (s.inAccess r tag (.read (s.store.slotHandle n) .done)).setWalk (.slot n) := by
  unfold State.slotStep
  rw [show (s.beginRequest r tag).store = s.store from rfl, h]
  rfl

theorem slotStep_none {s : State} {r : Request} {tag : Byte} {above : Fin 64 → Bool}
    (h : s.store.nextOccupied above = none) :
    (s.beginRequest r tag).slotStep above = (s.replied r tag .endOfWalk false []).setWalk .inactive := by
  unfold State.slotStep
  rw [show (s.beginRequest r tag).store = s.store from rfl, h]
  rfl

theorem rankStep_some {s : State} {r : Request} {tag : Byte} {returned : List Handle} {x : Handle} (status ended : Status)
    (h : s.planner.ranking.find? (fun h => !returned.contains h) = some x) :
    (s.beginRequest r tag).rankStep returned status ended =
      (s.inAccess r tag (.read x status)).setWalk (.rank (returned ++ [x]) false) := by
  unfold State.rankStep
  rw [show (s.beginRequest r tag).planner = s.planner from rfl, h]
  rfl

theorem rankStep_none {s : State} {r : Request} {tag : Byte} {returned : List Handle} (status ended : Status)
    (h : s.planner.ranking.find? (fun h => !returned.contains h) = none) :
    (s.beginRequest r tag).rankStep returned status ended = (s.replied r tag ended false []).setWalk .inactive := by
  unfold State.rankStep
  rw [show (s.beginRequest r tag).planner = s.planner from rfl, h]
  rfl

/-- A RANK walk that begins reads the head of the ranking. -/
theorem rankStep_first (s : State) (r : Request) (tag : Byte) (status ended : Status) :
    (s.beginRequest r tag).rankStep [] status ended =
      match s.planner.ranking with
      | [] => (s.replied r tag ended false []).setWalk .inactive
      | h :: _ => (s.inAccess r tag (.read h status)).setWalk (.rank [h] false) := by
  cases hl : s.planner.ranking with
  | nil => exact rankStep_none status ended (by rw [hl]; rfl)
  | cons h t => exact rankStep_some status ended (by rw [hl]; rfl)

/-- Settles O16. -/
theorem walks : Obligations.Walks := by
  refine ⟨fun s tag => ⟨fun h => ⟨fun n hn => ?slotStart, fun hfree => ?slotNone⟩,
      fun last h hw => ⟨fun n hn => ?slotNext, fun hfree => ?slotEnd⟩⟩,
    fun s tag => ⟨fun h => ?rankStart, fun h hw => ?inactive, fun returned h hw => ?restarted,
      fun returned before x after h hw hl hbefore hx => ?rankNext, fun returned h hw hall => ?rankEnd,
      fun form hform h => ?badForm⟩⟩
  case slotStart =>
    rw [exec_walkStart h, State.walkStartRequest, slotStep_some (nextOccupied_of (b := 0) (by simp) hn)]
  case slotNone =>
    rw [exec_walkStart h, State.walkStartRequest, slotStep_none (nextOccupied_none fun n _ => hfree n)]
  case slotNext =>
    rw [exec_walkNext h, State.walkNextRequest, show (s.beginRequest .walkNext tag).link.walk = _ from hw]
    dsimp only
    rw [slotStep_some (nextOccupied_of (p := fun n => last < n) (fun m => decide_eq_true_iff.trans Iff.rfl) hn)]
  case slotEnd =>
    rw [exec_walkNext h, State.walkNextRequest, show (s.beginRequest .walkNext tag).link.walk = _ from hw]
    dsimp only
    rw [slotStep_none (nextOccupied_none fun n hn => hfree n (of_decide_eq_true hn))]
  case rankStart =>
    rw [exec_walkStart h, State.walkStartRequest]
    exact congrArg (fun t => Host.Outcome.next (State.finish t)) (rankStep_first s (.walkStart 1) tag _ _)
  case inactive =>
    rw [exec_walkNext h, State.walkNextRequest, show (s.beginRequest .walkNext tag).link.walk = _ from hw]
    rfl
  case restarted =>
    rw [exec_walkNext h, State.walkNextRequest, show (s.beginRequest .walkNext tag).link.walk = _ from hw]
    exact congrArg (fun t => Host.Outcome.next (State.finish t)) (rankStep_first s .walkNext tag _ _)
  case rankNext =>
    have hfind : s.planner.ranking.find? (fun h => !returned.contains h) = some x := by
      rw [List.find?_eq_some_iff_append]
      exact ⟨by simpa using hx, before, after, hl, fun y hy => by simpa using hbefore y hy⟩
    rw [exec_walkNext h, State.walkNextRequest, show (s.beginRequest .walkNext tag).link.walk = _ from hw]
    dsimp only
    rw [rankStep_some _ _ hfind]
  case rankEnd =>
    have hfind : s.planner.ranking.find? (fun h => !returned.contains h) = none := by
      rw [List.find?_eq_none]
      intro y hy
      simpa using hall y hy
    rw [exec_walkNext h, State.walkNextRequest, show (s.beginRequest .walkNext tag).link.walk = _ from hw]
    dsimp only
    rw [rankStep_none _ _ hfind]
  case badForm =>
    rw [exec_walkStart h, State.walkStartRequest]
    · rfl
    · omega
    · omega

end Sys2Proof.Machine

/-! The record after an AMEND (01 section 2.4), and requests that wait for the posted changes ahead of them (11 section
12.2). -/

namespace Sys2Proof.Machine

/-! ### What an AMEND writes (R12, R13) -/

theorem newDeparture_eq (o : Order) (f : AmendFields) :
    newDeparture o f = if f.mask.getLsbD 0 = true then f.departure else o.departure := by
  unfold newDeparture AmendFields.departure?
  split <;> rfl

theorem newVehicle_eq (o : Order) (f : AmendFields) :
    newVehicle o f = if f.mask.getLsbD 4 = true then f.vehicle else o.vehicle := by
  unfold newVehicle AmendFields.vehicle?
  split <;> rfl

theorem newEarliest_eq (o : Order) (f : AmendFields) : newEarliest o f =
    if f.mask.getLsbD 6 = true then none else if f.mask.getLsbD 5 = true then some f.earliest else o.earliest := by
  unfold newEarliest AmendFields.clearsEarliest AmendFields.setEarliest?
  split
  · rfl
  · split <;> rfl

theorem newHold_eq (o : Order) (f : AmendFields) : newHold o f =
    if f.mask.getLsbD 8 = true then none else if f.mask.getLsbD 7 = true then some (min 60 f.hold) else o.hold := by
  unfold newHold AmendFields.clearsHold AmendFields.setHold?
  split
  · rfl
  · split <;> rfl

theorem amend_target (o : Order) (now : Nat) (f : AmendFields) :
    (o.amend now f).target = if f.mask.getLsbD 1 = true then min 280 (max 100 f.target) else o.target := by
  unfold Order.amend AmendFields.target?
  dsimp only
  split <;> rfl

theorem amend_cls (o : Order) (now : Nat) (f : AmendFields) (h : f.mask.getLsbD 2 = true) (hc : f.cls < 16) :
    ((o.amend now f).cls : Nat) = f.cls := by
  unfold Order.amend AmendFields.cls?
  rw [if_pos h]
  simp only [Option.bind_some, classOf_eq (n := ⟨f.cls, hc⟩) rfl, Option.getD_some]

theorem amend_cls_same (o : Order) (now : Nat) (f : AmendFields) (h : f.mask.getLsbD 2 = false) :
    (o.amend now f).cls = o.cls := by
  unfold Order.amend AmendFields.cls?
  rw [if_neg (ne_true_of_eq_false h)]
  rfl

theorem tierOf_code {t : Nat} (h : t < 3) : ∃ x, tierOf? t = some x ∧ x.code = byte t := by
  match t, h with
  | 0, _ => exact ⟨_, rfl, rfl⟩
  | 1, _ => exact ⟨_, rfl, rfl⟩
  | 2, _ => exact ⟨_, rfl, rfl⟩

theorem amend_tier (o : Order) (now : Nat) (f : AmendFields) (h : f.mask.getLsbD 3 = true) (ht : f.tier < 3) :
    (o.amend now f).tier.code = byte f.tier := by
  obtain ⟨x, hx, hcode⟩ := tierOf_code ht
  unfold Order.amend AmendFields.tier?
  rw [if_pos h]
  simp only [Option.bind_some, hx, Option.getD_some, hcode]

theorem amend_tier_same (o : Order) (now : Nat) (f : AmendFields) (h : f.mask.getLsbD 3 = false) :
    (o.amend now f).tier = o.tier := by
  unfold Order.amend AmendFields.tier?
  rw [if_neg (ne_true_of_eq_false h)]
  rfl

theorem retimes_iff (f : AmendFields) :
    AmendFields.retimes f = true ↔ f.mask.getLsbD 0 = true ∨ f.mask.getLsbD 1 = true := by
  unfold AmendFields.retimes AmendFields.departure? AmendFields.target?
  cases f.mask.getLsbD 0 <;> cases f.mask.getLsbD 1 <;> simp

theorem clampEarliest_some (now e d : Nat) : clampEarliest now (some e) d =
    some (if 0 ≤ aheadMinutes now e ∧ aheadMinutes now d < aheadMinutes now e then d else e) :=
  congrArg some (if_congr (clampsEarliest_iff now e d) rfl rfl)

theorem amendClamped_iff (o : Order) (now : Nat) (f : AmendFields) : amendClamped o now f = true ↔
    (f.mask.getLsbD 1 = true ∧ (o.amend now f).target ≠ f.target) ∨ (f.mask.getLsbD 7 = true ∧ 60 < f.hold) ∨
      (o.amend now f).earliest ≠ newEarliest o f := by
  have htarget : f.target?.any (fun t => decide (clampTarget t ≠ t)) = true ↔
      f.mask.getLsbD 1 = true ∧ (o.amend now f).target ≠ f.target := by
    rw [amend_target]
    unfold AmendFields.target?
    cases f.mask.getLsbD 1 with
    | false => simp
    | true => exact ⟨fun h => ⟨rfl, of_decide_eq_true h⟩, fun h => decide_eq_true h.2⟩
  have hhold : f.setHold?.any (fun m => decide (60 < m)) = true ↔ f.mask.getLsbD 7 = true ∧ 60 < f.hold := by
    unfold AmendFields.setHold?
    cases f.mask.getLsbD 7 <;> simp
  unfold amendClamped
  simp only [Bool.or_eq_true, htarget, hhold, decide_eq_true_eq, or_assoc]
  rfl

/-- Settles O17. -/
theorem amendedRecord : Obligations.AmendedRecord := by
  refine ⟨fun f x => ⟨locked_iff f x, amendBadField_iff f⟩, fun o o' now f h => ?_⟩
  subst h
  rw [← newEarliest_eq, ← newHold_eq, ← newDeparture_eq, ← newVehicle_eq]
  refine ⟨rfl, amend_target o now f, amend_cls o now f, amend_cls_same o now f, amend_tier o now f,
    amend_tier_same o now f, rfl, fun e he => ?_, fun hn => ?_, rfl, if_congr (retimes_iff f) rfl rfl, rfl, rfl, rfl, rfl,
    rfl, rfl, rfl, rfl, rfl, rfl, amendClamped_iff o now f⟩
  · show clampEarliest now (newEarliest o f) (newDeparture o f) = _
    rw [he, clampEarliest_some]
    rfl
  · show clampEarliest now (newEarliest o f) (newDeparture o f) = _
    rw [hn]
    rfl

/-! ### The receive buffer and what a request does (R166, R167)

A request's effect reads the buffer nowhere: emptied before or after, the result is the same. -/

theorem startDue_emptyBuffer (s : State) : s.emptyBuffer.startDue = s.startDue.emptyBuffer := by
  unfold State.startDue
  rw [show s.emptyBuffer.planner = s.planner from rfl]
  split <;> rfl

theorem changeMode_emptyBuffer (s : State) (m : SiteMode) (r : Option Nat) :
    s.emptyBuffer.changeMode m r = (s.changeMode m r).emptyBuffer := by
  unfold State.changeMode
  rw [show s.emptyBuffer.supply = s.supply from rfl]
  split <;> rfl

theorem judgeCalls_emptyBuffer (s : State) (x : Supply) : s.emptyBuffer.judgeCalls x = (s.judgeCalls x).emptyBuffer :=
  changeMode_emptyBuffer { s with supply := x } _ _

theorem restoreExpires_emptyBuffer (s : State) : s.emptyBuffer.restoreExpires = s.restoreExpires.emptyBuffer := by
  unfold State.restoreExpires
  rw [changeMode_emptyBuffer, show s.emptyBuffer.supply = s.supply from rfl]
  split <;> rfl

theorem roundTimerExpires_emptyBuffer (s : State) :
    s.emptyBuffer.roundTimerExpires = s.roundTimerExpires.emptyBuffer := by
  unfold State.roundTimerExpires
  rw [show s.emptyBuffer.planner = s.planner from rfl]
  split <;> rfl

theorem restoreIf_emptyBuffer (s : State) (b : Bool) : s.emptyBuffer.restoreIf b = (s.restoreIf b).emptyBuffer := by
  cases b
  · rfl
  · exact restoreExpires_emptyBuffer s

theorem roundIf_emptyBuffer (s : State) (b : Bool) : s.emptyBuffer.roundIf b = (s.roundIf b).emptyBuffer := by
  cases b
  · rfl
  · exact roundTimerExpires_emptyBuffer s

theorem replanIf_emptyBuffer (s : State) (b : Bool) : s.emptyBuffer.replanIf b = (s.replanIf b).emptyBuffer := by
  cases b <;> rfl

theorem storeSite_emptyBuffer (s : State) (x : SiteSettings) :
    s.emptyBuffer.storeSite x = (s.storeSite x).emptyBuffer := by
  unfold State.storeSite
  rw [show ({ s.emptyBuffer with site := x } : State) = State.emptyBuffer { s with site := x } from rfl,
    restoreIf_emptyBuffer, startDue_emptyBuffer, roundIf_emptyBuffer, replanIf_emptyBuffer]
  rfl

theorem answer_emptyBuffer (s : State) (x : Status) (c : Bool) (p : List Byte) :
    s.emptyBuffer.answer x c p = (s.answer x c p).emptyBuffer := by
  unfold State.answer Link.answer
  rw [show s.emptyBuffer.link.inProgress = s.link.inProgress from rfl]
  cases s.link.inProgress <;> rfl

theorem refuse_emptyBuffer (s : State) (x : Status) : s.emptyBuffer.refuse x = (s.refuse x).emptyBuffer :=
  answer_emptyBuffer s x false []

theorem judged_emptyBuffer (s : State) (l : List (Bool × Status)) (accept : State) :
    judged l s.emptyBuffer.refuse accept.emptyBuffer = (judged l s.refuse accept).emptyBuffer := by
  unfold judged
  cases firstRefusal l with
  | none => rfl
  | some x => exact refuse_emptyBuffer s x

theorem placeRequest_emptyBuffer (s : State) (f : PlaceFields) :
    s.emptyBuffer.placeRequest f = (s.placeRequest f).emptyBuffer := by
  rw [placeRequest_judged, placeRequest_judged, ← judged_emptyBuffer]
  rfl

theorem lookupRequest_emptyBuffer (s : State) (r : RawHandle) :
    s.emptyBuffer.lookupRequest r = (s.lookupRequest r).emptyBuffer := by
  unfold State.lookupRequest
  rw [refuse_emptyBuffer, show s.emptyBuffer.store = s.store from rfl]
  split
  · rfl
  · split <;> rfl

theorem findRequest_emptyBuffer (s : State) (v : Nat) : s.emptyBuffer.findRequest v = (s.findRequest v).emptyBuffer := by
  unfold State.findRequest
  rw [refuse_emptyBuffer]
  split <;> rfl

theorem endWalk_emptyBuffer (s : State) (x : Status) : s.emptyBuffer.endWalk x = (s.endWalk x).emptyBuffer :=
  answer_emptyBuffer (s.setWalk .inactive) x false []

theorem slotStep_emptyBuffer (s : State) (above : Fin 64 → Bool) :
    s.emptyBuffer.slotStep above = (s.slotStep above).emptyBuffer := by
  unfold State.slotStep
  rw [endWalk_emptyBuffer, show s.emptyBuffer.store = s.store from rfl]
  split <;> rfl

theorem rankStep_emptyBuffer (s : State) (returned : List Handle) (x y : Status) :
    s.emptyBuffer.rankStep returned x y = (s.rankStep returned x y).emptyBuffer := by
  unfold State.rankStep
  rw [endWalk_emptyBuffer, show s.emptyBuffer.planner = s.planner from rfl]
  split <;> rfl

theorem walkStartRequest_emptyBuffer (s : State) (form : Nat) :
    s.emptyBuffer.walkStartRequest form = (s.walkStartRequest form).emptyBuffer := by
  unfold State.walkStartRequest
  rw [slotStep_emptyBuffer, rankStep_emptyBuffer, refuse_emptyBuffer]
  split <;> rfl

theorem walkNextRequest_emptyBuffer (s : State) : s.emptyBuffer.walkNextRequest = s.walkNextRequest.emptyBuffer := by
  unfold State.walkNextRequest
  rw [show s.emptyBuffer.link.walk = s.link.walk from rfl]
  split
  · exact refuse_emptyBuffer s _
  · exact slotStep_emptyBuffer s _
  · exact rankStep_emptyBuffer s _ _ _
  · exact rankStep_emptyBuffer s _ _ _

theorem setSiteRequest_emptyBuffer (s : State) (f : SiteFields) :
    s.emptyBuffer.setSiteRequest f = (s.setSiteRequest f).emptyBuffer := by
  unfold State.setSiteRequest
  split
  · exact refuse_emptyBuffer s _
  · rw [answer_emptyBuffer, storeSite_emptyBuffer]

theorem setLinkRequest_emptyBuffer (s : State) (posting time : Nat) :
    s.emptyBuffer.setLinkRequest posting time = (s.setLinkRequest posting time).emptyBuffer := by
  unfold State.setLinkRequest
  split
  · exact refuse_emptyBuffer s _
  · dsimp only
    rw [answer_emptyBuffer]
    rfl

theorem setService_emptyBuffer (s : State) (n : Fin 24) (v : Option Bool) :
    s.emptyBuffer.setService n v = (s.setService n v).emptyBuffer := by
  unfold State.setService
  rw [show s.emptyBuffer.bus = s.bus from rfl]
  split
  · split <;> rfl
  · split <;> rfl
  · rfl

theorem setPostRequest_emptyBuffer (s : State) (f : SetPostFields) :
    s.emptyBuffer.setPostRequest f = (s.setPostRequest f).emptyBuffer := by
  unfold State.setPostRequest
  simp only [refuse_emptyBuffer, answer_emptyBuffer, show s.emptyBuffer.bus = s.bus from rfl]
  split
  case h_1 => rfl
  case h_2 n _ =>
    split
    · rfl
    · split
      · rfl
      · exact setService_emptyBuffer { s.answer .done (f.feedLimit?.any (fun w => feedStored w ≠ w)) [] with
          bus := s.bus.modify n (fun p => p.configure f) } n _

theorem readPostRequest_emptyBuffer (s : State) (n : Nat) :
    s.emptyBuffer.readPostRequest n = (s.readPostRequest n).emptyBuffer := by
  unfold State.readPostRequest
  split
  · exact refuse_emptyBuffer s _
  · exact answer_emptyBuffer s _ _ _

theorem applyClass_emptyBuffer (s : State) (c : Fin 16) (f : SetClassFields) :
    s.emptyBuffer.applyClass c f = (s.applyClass c f).emptyBuffer := by
  unfold State.applyClass
  rw [refuse_emptyBuffer, answer_emptyBuffer, show s.emptyBuffer.changesHeater = s.changesHeater from rfl,
    show s.emptyBuffer.classHeating = s.classHeating from rfl]
  split <;> rfl

theorem setClassRequest_emptyBuffer (s : State) (f : SetClassFields) :
    s.emptyBuffer.setClassRequest f = (s.setClassRequest f).emptyBuffer := by
  unfold State.setClassRequest
  split
  · exact refuse_emptyBuffer s _
  · rw [applyClass_emptyBuffer, show s.emptyBuffer.planner = s.planner from rfl]
    split <;> rfl

theorem clearClassRequest_emptyBuffer (s : State) (c : Nat) :
    s.emptyBuffer.clearClassRequest c = (s.clearClassRequest c).emptyBuffer := by
  unfold State.clearClassRequest
  split
  · exact refuse_emptyBuffer s _
  · rw [refuse_emptyBuffer, answer_emptyBuffer, show s.emptyBuffer.classes = s.classes from rfl]
    split <;> rfl

theorem readClassRequest_emptyBuffer (s : State) (c : Nat) :
    s.emptyBuffer.readClassRequest c = (s.readClassRequest c).emptyBuffer := by
  unfold State.readClassRequest
  split
  · exact refuse_emptyBuffer s _
  · exact answer_emptyBuffer s _ _ _

theorem setTimeRequest_emptyBuffer (s : State) (m sec : Nat) :
    s.emptyBuffer.setTimeRequest m sec = (s.setTimeRequest m sec).emptyBuffer := by
  unfold State.setTimeRequest
  rw [refuse_emptyBuffer, answer_emptyBuffer]
  split <;> rfl

theorem setModeRequest_emptyBuffer (s : State) (m : Nat) :
    s.emptyBuffer.setModeRequest m = (s.setModeRequest m).emptyBuffer := by
  unfold State.setModeRequest
  split
  · exact refuse_emptyBuffer s _
  · rw [answer_emptyBuffer]
    exact judgeCalls_emptyBuffer (s.answer .done false []) _

theorem replanRequest_emptyBuffer (s : State) : s.emptyBuffer.replanRequest = s.replanRequest.emptyBuffer := by
  unfold State.replanRequest
  rw [answer_emptyBuffer]
  rfl

theorem readAttentionRequest_emptyBuffer (s : State) (source : Option Nat) :
    s.emptyBuffer.readAttentionRequest source = (s.readAttentionRequest source).emptyBuffer := by
  unfold State.readAttentionRequest
  split
  · exact answer_emptyBuffer s _ _ _
  · split
    · exact refuse_emptyBuffer s _
    · exact answer_emptyBuffer s _ _ _

theorem clearAttentionRequest_emptyBuffer (s : State) (source : Nat) (set : Byte) :
    s.emptyBuffer.clearAttentionRequest source set = (s.clearAttentionRequest source set).emptyBuffer := by
  unfold State.clearAttentionRequest
  split
  case h_1 => exact refuse_emptyBuffer s _
  case h_2 n _ =>
    split
    · exact answer_emptyBuffer { s with attention := s.attention.clear n set } _ _ _
    · exact refuse_emptyBuffer s _

theorem setMasksRequest_emptyBuffer (s : State) (m : BitVec 32) (g : Byte) :
    s.emptyBuffer.setMasksRequest m g = (s.setMasksRequest m g).emptyBuffer := by
  unfold State.setMasksRequest
  rw [answer_emptyBuffer]
  rfl

theorem changeUnposted_emptyBuffer (s : State) (c : Change) :
    s.emptyBuffer.changeUnposted c = (s.changeUnposted c).emptyBuffer := by
  rw [changeUnposted_judged, changeUnposted_judged, ← judged_emptyBuffer]
  cases c <;> rfl

/-- The effect of a request is the same whether the receive buffer is emptied before it or after it. -/
theorem requestEffect_emptyBuffer (s : State) (r : Request) :
    s.emptyBuffer.requestEffect r = (s.requestEffect r).emptyBuffer := by
  cases r with
  | place f => exact placeRequest_emptyBuffer s f
  | change c => exact changeUnposted_emptyBuffer s c
  | lookup h => exact lookupRequest_emptyBuffer s h
  | find v => exact findRequest_emptyBuffer s v
  | walkStart form => exact walkStartRequest_emptyBuffer s form
  | walkNext => exact walkNextRequest_emptyBuffer s
  | setSite f => exact setSiteRequest_emptyBuffer s f
  | readSite => exact answer_emptyBuffer s _ _ _
  | setLink posting time => exact setLinkRequest_emptyBuffer s posting time
  | setPost f => exact setPostRequest_emptyBuffer s f
  | readPost n => exact readPostRequest_emptyBuffer s n
  | setClass f => exact setClassRequest_emptyBuffer s f
  | clearClass c => exact clearClassRequest_emptyBuffer s c
  | readClass c => exact readClassRequest_emptyBuffer s c
  | setTime m sec => exact setTimeRequest_emptyBuffer s m sec
  | readTime => exact answer_emptyBuffer s _ _ _
  | setMode m => exact setModeRequest_emptyBuffer s m
  | replan => exact replanRequest_emptyBuffer s
  | readAttention source => exact readAttentionRequest_emptyBuffer s source
  | clearAttention source set => exact clearAttentionRequest_emptyBuffer s source set
  | setMasks m g => exact setMasksRequest_emptyBuffer s m g

/-- What follows an event reads of the link what it presents alone, and leaves it. -/
theorem finish_relink (s : State) (l : Link) (h : l.presented = s.link.presented) :
    State.finish { s with link := l } = { s.finish with link := l } := by
  have hpresented (t : State) (r : Requester) (ht : t.link = s.link) :
      ({ t with link := l } : State).presented r = t.presented r := by
    cases r with
    | link => exact congrArg (Option.map Access.link) (h.trans (congrArg Link.presented ht.symm))
    | posts => rfl
    | plan => rfl
  have hsettle (t : State) (ht : t.link = s.link) : State.settle { t with link := l } = { t.settle with link := l } := by
    unfold State.settle
    simp only [hpresented t _ ht]
    split
    · rfl
    · split <;> rfl
  have hdue : State.startDue { s with link := l } = { s.startDue with link := l } := by
    unfold State.startDue
    dsimp only
    split <;> rfl
  unfold State.finish
  rw [hdue, hsettle _ (by simp)]

/-! ### Waiting for the posted changes (R166, R167) -/

/-- While posted changes wait, a request that is not posted becomes the request in progress. -/
theorem takeRequest_waits {s : State} {r : Request} (tag : Byte) (hp : s.link.posting ≠ [])
    (ht : s.link.takes r = true) (hw : s.link.wouldPost r = false) : s.takeRequest r tag = s.beginRequest r tag := by
  have htake (e : State → State) : s.takeUnposted r tag e = s.beginRequest r tag :=
    if_neg (by simpa using hp)
  unfold State.takeRequest
  split
  case h_1 c => rw [State.changeRequest, if_pos ht, if_neg (by simp [hw]), htake]
  case h_2 => rw [State.carryOut, if_pos ht, htake]

theorem wouldPost_false {l : Link} {r : Request}
    (h : ∀ c, r = .change c → l.postingEnabled = false ∨ ∃ w ∈ l.posting, w.handle.slot = c.handle.slot) :
    l.wouldPost r = false := by
  cases r with
  | change c => rcases h c rfl with hdis | hsame <;> simp [Link.wouldPost, Link.sameSlot, *]
  | _ => rfl

/-- The due round starts as `finish` would start it. -/
theorem startDue_eq (s : State) :
    s.startDue = if s.planner.round = none ∧ s.planner.replan = true then s.startRound else s := by
  unfold State.startDue
  exact if_congr (by simp) rfl rfl

/-- The port of a state without the frame in its buffer, posting disabled. -/
def State.unpostedPort (s : State) : State := { s with link := { s.link with buffer := none, postingEnabled := false } }

theorem finish_emptyBuffer (s : State) : s.emptyBuffer.finish = s.finish.emptyBuffer := by
  have hlink := finish_relink s { s.link with buffer := none } rfl
  unfold State.emptyBuffer
  rw [hlink, State.finish_link]

theorem finish_unpostedPort (s : State) : s.unpostedPort.finish = s.finish.unpostedPort := by
  have hlink := finish_relink s { s.link with buffer := none, postingEnabled := false } rfl
  unfold State.unpostedPort
  rw [hlink, State.finish_link]

theorem answer_unpostedPort (s : State) (x : Status) (c : Bool) (p : List Byte) :
    s.unpostedPort.answer x c p = (s.answer x c p).unpostedPort := by
  unfold State.answer Link.answer
  rw [show s.unpostedPort.link.inProgress = s.link.inProgress from rfl]
  cases s.link.inProgress <;> rfl

theorem changeUnposted_unpostedPort (s : State) (c : Change) :
    s.unpostedPort.changeUnposted c = (s.changeUnposted c).unpostedPort := by
  rw [changeUnposted_judged, changeUnposted_judged]
  unfold judged
  rw [show s.unpostedPort.directoryChecks c = s.directoryChecks c by cases c <;> rfl]
  cases firstRefusal (s.directoryChecks c) with
  | none => rfl
  | some x => exact answer_unpostedPort s x false []

theorem directoryChecks_withdraw (s : State) (h : RawHandle) : s.directoryChecks (.withdraw h) =
    [(decide (s.store.rawVerdict h = .unknown), .unknownHandle), (decide (s.store.rawVerdict h = .closed), .closed)] := rfl

theorem directoryChecks_release (s : State) (h : RawHandle) : s.directoryChecks (.release h) =
    [(decide (s.store.rawVerdict h = .unknown), .unknownHandle), (decide (s.store.rawVerdict h = .live), .notClosed)] := rfl

/-- Settles O14: the directory's checks of a change that is not posted, one after the other; and the end of a LINK
access carries the waiting request out as its row would at that moment. -/
theorem changesUnposted : Obligations.ChangesUnposted := by
  refine ⟨fun s tag => ⟨fun f h => ?amend, fun r h => ?withdraw, fun r h => ?release⟩,
    fun s r tag hp hnone hbuf hr => ?waits, fun s h => ?stays, fun s t r tag hp hr ht => ⟨fun hc => ?carried,
      fun c hc => ?change⟩⟩
  case amend =>
    rw [show Instr.amend tag f = (Request.change (.amend f)).command tag from rfl, exec_unposted h,
      changeUnposted_judged, State.directoryChecks, State.amendDirectoryChecks]
    simp only [judged_cons, judged_nil, beginRequest_refuse, beginRequest_present, decide_eq_true_eq]
    rfl
  case withdraw =>
    rw [show Instr.withdraw tag r = (Request.change (.withdraw r)).command tag from rfl, exec_unposted h,
      changeUnposted_judged, directoryChecks_withdraw]
    simp only [judged_cons, judged_nil, beginRequest_refuse, beginRequest_present, decide_eq_true_eq]
    rw [show (s.beginRequest (.change (.withdraw r)) tag).store = s.store from rfl]
    cases s.store.rawVerdict r <;> rfl
  case release =>
    rw [show Instr.release tag r = (Request.change (.release r)).command tag from rfl, exec_unposted h,
      changeUnposted_judged, directoryChecks_release]
    simp only [judged_cons, judged_nil, beginRequest_refuse, beginRequest_present, decide_eq_true_eq]
    rw [show (s.beginRequest (.change (.release r)) tag).store = s.store from rfl]
    cases s.store.rawVerdict r <;> rfl
  case waits =>
    have hw := wouldPost_false hr
    have ht : s.link.takes r = true := takes_iff.mpr ⟨hnone, hbuf, by simp [Link.blocked, hw]⟩
    rw [exec_command, takeRequest_waits tag hp ht hw]
    rfl
  case stays =>
    unfold State.finishLink
    rw [carryWaiting_none (h.imp_right fun hst p hq => hst p (Option.mem_def.mp hq))]
  case carried =>
    rw [← startDue_eq] at ht
    subst ht
    rw [exec_ready (s := { s.startDue with link := { s.link with inProgress := none, buffer := none } }) ⟨hp, rfl, rfl⟩ hc,
      State.finishLink, carryWaiting_some hp hr]
    congr 1
    calc _ = (s.startDue.emptyBuffer.requestEffect r).finish := by
          congr 2
          unfold State.beginRequest State.emptyBuffer
          rw [State.startDue_link, ← hr]
      _ = (s.startDue.requestEffect r).finish.emptyBuffer := by rw [requestEffect_emptyBuffer, finish_emptyBuffer]
  case change =>
    rw [← startDue_eq] at ht
    subst ht hc
    rw [exec_unposted (s := { s.startDue with link := { s.link with inProgress := none, buffer := none, postingEnabled := false } })
        ⟨⟨hp, rfl, rfl⟩, rfl⟩, State.finishLink, carryWaiting_some hp hr]
    congr 1
    calc _ = (s.startDue.unpostedPort.changeUnposted c).finish := by
          congr 2
          unfold State.beginRequest State.unpostedPort
          rw [State.startDue_link, ← hr]
      _ = (s.startDue.changeUnposted c).finish.unpostedPort := by
          rw [changeUnposted_unpostedPort, finish_unpostedPort]

end Sys2Proof.Machine

/-! Requests on the clock, the site and the link: SET TIME, READ TIME, SET MODE, REPLAN, SET SITE, READ SITE and SET LINK
(03 section 4.2; 07 section 8.1; 09 section 10.2; 11 sections 12.5 and 12.6). -/

namespace Sys2Proof.Machine

/-! ### SET TIME, READ TIME, SET MODE and REPLAN (R48, R50, R119, R147) -/

theorem forcedOf_code {m : Nat} {v : ForcedMode} (h : m = match v with | .none => 0 | .limited => 1 | .shed => 2) :
    forcedOf? m = some v := by
  subst h
  cases v <;> rfl

theorem forcedOf_none {m : Nat} (h : 2 < m) : forcedOf? m = none := by
  match m, h with
  | _ + 3, _ => rfl

/-- Settles O18. -/
theorem timeModeReplan : Obligations.TimeModeReplan := by
  refine ⟨fun s tag => ⟨fun m sec h => ?setTime, fun h => ?readTime⟩,
    fun s tag => ⟨fun m h hm => ?badMode, fun m v h hm => ?setMode, fun h => ?replan⟩⟩
  case setTime =>
    rw [show Instr.setTime tag m sec = (Request.setTime m sec).command tag from rfl, exec_ready (r := .setTime m sec) h nofun]
    congr 2
    exact if_congr (by simp [minuteOk_iff]) rfl rfl
  case readTime => exact exec_ready (r := .readTime) h nofun tag
  case badMode =>
    rw [show Instr.setMode tag m = (Request.setMode m).command tag from rfl, exec_ready (r := .setMode m) h nofun]
    show Host.Outcome.next ((s.beginRequest _ tag).setModeRequest m).finish = _
    unfold State.setModeRequest
    rw [forcedOf_none hm]
    rfl
  case setMode =>
    rw [show Instr.setMode tag m = (Request.setMode m).command tag from rfl, exec_ready (r := .setMode m) h nofun]
    show Host.Outcome.next ((s.beginRequest _ tag).setModeRequest m).finish = _
    unfold State.setModeRequest
    rw [forcedOf_code hm]
    rfl
  case replan => exact exec_ready (r := .replan) h nofun tag

/-! ### SET SITE (R173) -/

theorem edgeOf_none {k : Nat} (h : 1 < k) : edgeOf? k = none := by
  match k, h with
  | _ + 2, _ => rfl

/-- The restore timer's expiry in RESTORING, written out. -/
theorem restoreExpires_eq {s : State} (h : s.supply.mode = .restoring) : s.restoreExpires = { s with
    supply := { s.supply with
      mode := if s.supply.limit.filtered = .high ∨ s.supply.forced = .limited then .limited else .normal
      restore := none }
    attention := { s.attention with modeChange := true }
    planner := { s.planner with replan := true } } := by
  have hmode : s.supply.restoredMode =
      if s.supply.limit.filtered = .high ∨ s.supply.forced = .limited then .limited else .normal :=
    if_congr (by simp [Supply.limitCalled]) rfl rfl
  have hmoves : s.supply.restoredMode ≠ s.supply.mode := by
    rw [hmode, h]
    split <;> nofun
  have hshed : s.supply.restoredMode ≠ .shed := by
    rw [hmode]
    split <;> nofun
  unfold State.restoreExpires State.changeMode
  rw [if_pos h, if_neg hmoves, if_neg hshed, ← hmode]
  rfl

theorem restoreExpires_idle {s : State} (h : s.supply.mode ≠ .restoring) : s.restoreExpires = s := if_neg h

theorem siteClamped_given_iff (f : SiteFields) (edge : Edge) (x : SiteSettings) (hx : x.meterEdge = edge) :
    x = siteGiven f edge ↔
      x.siteLimit = f.siteLimit ∧ x.limitedLevel = f.limitedLevel ∧ x.ceiling = f.ceiling ∧
        x.autoCeiling = f.autoCeiling ∧ x.rampLimit = f.rampLimit ∧ x.meterConstant = f.meterConstant ∧
        x.restoreDelay = f.restoreDelay ∧ x.roundPeriod = f.roundPeriod ∧ x.startLead = f.startLead ∧
        x.grace = f.grace ∧ x.departWindow = f.departWindow ∧ x.horizon = f.horizon ∧ x.fallback = f.fallback := by
  obtain ⟨_, _, _, _, _, _, _, _, _, _, _, _, _, _⟩ := x
  subst hx
  simp [siteGiven]

/-- The restore timer that a new restore delay makes due, as R149 takes it: due only in RESTORING. -/
theorem restoreIf_due (s : State) (x : SiteSettings) (due : Bool)
    (h : due = true ↔ s.supply.mode = .restoring ∧ x.restoreDelay ≠ s.site.restoreDelay ∧
      ∃ n ∈ s.supply.restore, x.restoreDelay ≤ n / 1000) (t : State) (ht : t.supply = s.supply) :
    t.restoreIf (s.restoreDue x) = if due then t.restoreExpires else t := by
  have hdue : s.restoreDue x = true ↔
      x.restoreDelay ≠ s.site.restoreDelay ∧ ∃ n ∈ s.supply.restore, x.restoreDelay ≤ n / 1000 := by
    unfold State.restoreDue
    rw [Bool.and_eq_true, option_any_iff]
    simp [Config.msPerSecond]
  unfold State.restoreIf
  by_cases hmode : s.supply.mode = .restoring
  · exact if_congr (hdue.trans (by simp [h, hmode])) rfl rfl
  · have hidle : t.restoreExpires = t := restoreExpires_idle (by rwa [ht])
    rw [hidle, ite_self, ite_self]

theorem roundIf_eq (s : State) (due : Bool) : s.roundIf due =
    if due = false then s
    else if s.planner.round = none then s.startRound
    else { s with planner := { s.planner with timer := 0 }, attention := { s.attention with roundOverrun := true } } := by
  cases due with
  | false => rfl
  | true =>
    show s.roundTimerExpires = ite _ _ _
    unfold State.roundTimerExpires
    cases s.planner.round <;> rfl

theorem replanIf_eq (s : State) (changed : Bool) : s.replanIf changed =
    if changed = true then { s with planner := { s.planner with replan := true } } else s := by
  cases changed <;> rfl

/-- Settles O19. -/
theorem setSiteStores : Obligations.SetSiteStores := by
  intro s tag f h
  rw [show Instr.setSite tag f = (Request.setSite f).command tag from rfl, exec_ready (r := .setSite f) h nofun]
  show (_ → Host.Outcome.next ((s.beginRequest _ tag).setSiteRequest f).finish = _) ∧ _
  refine ⟨fun hedge => ?badEdge, fun x clamped restoreDue roundDue a b c d hedge hx hclamped hrestore hround ha hb hc hd =>
    ?stored⟩
  case badEdge =>
    unfold State.setSiteRequest
    rw [edgeOf_none hedge]
    rfl
  case stored =>
    have hstored : siteClamped f (if f.meterEdge = 0 then .rising else .falling) = x := by
      subst hx
      simp only [siteClamped, clampNat, clampInt, Nat.zero_max]
    have hmoved : decide (x ≠ siteGiven f (if f.meterEdge = 0 then .rising else .falling)) = clamped := by
      rw [← siteClamped_given_iff f _ x (by subst hx; rfl)] at hclamped
      cases clamped with
      | false => exact decide_eq_false (not_not.mpr (hclamped.mp rfl))
      | true => exact decide_eq_true fun q => Bool.noConfusion (hclamped.mpr q)
    have hdueRound : s.roundDue x = roundDue := by
      rw [Bool.eq_iff_iff, hround]
      simp [State.roundDue, Config.msPerSecond]
    have ha' : a = (State.restoreIf { s.replied (.setSite f) tag .done clamped [] with site := x } (s.restoreDue x)) := by
      rw [restoreIf_due s x restoreDue hrestore { s.replied (.setSite f) tag .done clamped [] with site := x } rfl, ha]
      cases restoreDue with
      | false => rfl
      | true =>
        have hmode := (hrestore.mp rfl).1
        rw [if_pos rfl, restoreExpires_eq (by exact hmode)]
        rfl
    show Host.Outcome.next (State.setSiteRequest _ f).finish = _
    unfold State.setSiteRequest
    rw [edgeOf_eq hedge]
    dsimp only
    rw [hstored, hmoved, beginRequest_answer]
    unfold State.storeSite
    congr 2
    rw [show State.restoreDue (s.replied (.setSite f) tag .done clamped []) x = s.restoreDue x from rfl,
      show State.roundDue (s.replied (.setSite f) tag .done clamped []) x = s.roundDue x from rfl,
      show State.windowsChange (s.replied (.setSite f) tag .done clamped []) x = s.windowsChange x from rfl,
      hdueRound, ← ha', startDue_eq, ← hb, roundIf_eq, ← hc, replanIf_eq, hd]
    exact if_congr (by simp [State.windowsChange]) rfl rfl

/-! ### READ SITE and SET LINK (R174, R175) -/

theorem beS16_eq (i : Int) : beS16 i = [(BitVec.ofInt 16 i).extractLsb' 8 8, (BitVec.ofInt 16 i).extractLsb' 0 8] := by
  unfold beS16 be16 BitVec.extractLsb'
  rw [BitVec.toNat_ofInt, Nat.shiftRight_eq_div_pow]
  rfl

theorem siteImage_length (s : State) : s.siteImage.length = 44 := by
  simp [State.siteImage, SiteSettings.bytes, be16_length, be32_length, beS16_length]

/-- Settles O20. -/
theorem siteAndLinkRequests : Obligations.SiteAndLinkRequests := by
  intro s tag
  refine ⟨fun image h himage => ?readSite, fun n i => ⟨rfl, beS16_eq i⟩, fun p t h => ?setLink⟩
  case readSite =>
    have hbytes : image = s.siteImage := by
      rw [himage]
      unfold State.siteImage SiteSettings.bytes be32
      simp only [List.append_assoc]
      congr
    rw [hbytes]
    exact ⟨exec_ready (r := .readSite) h nofun tag, siteImage_length s⟩
  case setLink =>
    rw [show Instr.setLink tag p t = (Request.setLink p t).command tag from rfl, exec_ready (r := .setLink p t) h nofun]
    rfl

end Sys2Proof.Machine

/-! SET POST and READ POST (04 sections 5.2 and 5.3). -/

namespace Sys2Proof.Machine

/-! ### Codes of the post settings (R60, R180) -/

theorem heaterOf_eq_some_iff {k : Nat} {h : Heater} :
    heaterOf? k = some h ↔ k = match h with | .continuous => 0 | .stepped => 1 | .switched => 2 := by
  unfold heaterOf?
  cases h <;> split <;> simp_all

theorem heaterOf_isNone_iff (k : Nat) : (heaterOf? k).isNone = true ↔ 2 < k := by
  unfold heaterOf?
  split <;> simp_all
  omega

theorem serviceOf_isNone_iff (k : Nat) : (serviceOf? k).isNone = true ↔ 1 < k := by
  unfold serviceOf?
  split <;> simp_all
  omega

theorem pollModeOf_eq_some_iff {k : Nat} {q : PollMode} :
    pollModeOf? k = some q ↔ k = match q with | .latent => 0 | .direct => 1 := by
  unfold pollModeOf?
  cases q <;> split <;> simp_all

theorem pollModeOf_isNone_iff (k : Nat) : (pollModeOf? k).isNone = true ↔ 1 < k := by
  unfold pollModeOf?
  split <;> simp_all
  omega

theorem postOf_none {k : Nat} (h : 23 < k) : postOf? k = none := by
  unfold postOf?
  rw [dif_neg (by omega)]

theorem named_any_iff {α : Type} (b : Bool) (k : α) (p : α → Bool) :
    (if b = true then some k else none).any p = true ↔ b = true ∧ p k = true := by
  cases b <;> simp

theorem setPostBadField_iff (f : SetPostFields) : SetPostFields.badField f = true ↔
    (f.mask.getLsbD 0 = true ∧ 1 < f.service) ∨ (f.mask.getLsbD 1 = true ∧ 2 < f.interface_) ∨
      (f.mask.getLsbD 3 = true ∧ 1 < f.pollMode) := by
  unfold SetPostFields.badField SetPostFields.service? SetPostFields.heater? SetPostFields.pollMode?
  simp only [Bool.or_eq_true, named_any_iff, serviceOf_isNone_iff, heaterOf_isNone_iff, pollModeOf_isNone_iff, or_assoc]

/-- SET POST moves the interface, or the feed limit as it is stored. -/
theorem changesFeed_iff (f : SetPostFields) (p : Post) : SetPostFields.changesFeed f p = true ↔
    (f.mask.getLsbD 1 = true ∧
        f.interface_ ≠ (match p.heater with | .continuous => 0 | .stepped => 1 | .switched => 2)) ∨
      (f.mask.getLsbD 2 = true ∧ min 10000 (max 1000 f.feedLimit) / 100 * 100 ≠ p.feedLimit) := by
  have hheater : f.heater?.any (fun v => decide (heaterOf? v ≠ some p.heater)) = true ↔ f.mask.getLsbD 1 = true ∧
      f.interface_ ≠ (match p.heater with | .continuous => 0 | .stepped => 1 | .switched => 2) :=
    (named_any_iff _ _ _).trans (and_congr_right' (decide_eq_true_iff.trans (not_congr heaterOf_eq_some_iff)))
  have hfeed : f.feedLimit?.any (fun w => decide (feedStored w ≠ p.feedLimit)) = true ↔
      f.mask.getLsbD 2 = true ∧ min 10000 (max 1000 f.feedLimit) / 100 * 100 ≠ p.feedLimit :=
    (named_any_iff _ _ _).trans (and_congr_right' decide_eq_true_iff)
  unfold SetPostFields.changesFeed
  rw [Bool.or_eq_true, hheater, hfeed]

/-! ### What SET POST refuses -/

theorem exec_setPost {s : State} (h : s.ready) (tag : Byte) (f : SetPostFields) :
    exec (.setPost tag f) s = .next ((s.beginRequest (.setPost f) tag).setPostRequest f).finish :=
  exec_ready (r := .setPost f) h nofun tag

theorem setPostRequest_noPost (s : State) {f : SetPostFields} (h : 23 < f.post) :
    s.setPostRequest f = s.refuse .badField := by
  unfold State.setPostRequest
  rw [postOf_none h]

theorem setPostRequest_post (s : State) {f : SetPostFields} {n : Fin 24} (h : f.post = n) : s.setPostRequest f =
    if SetPostFields.badField f = true then s.refuse .badField
    else if SetPostFields.changesFeed f s.bus.posts[n] = true ∧
        (s.bus.posts[n].state = .occupied ∨ s.bus.posts[n].state = .bound) then s.refuse .busy
    else State.setService
      { s.answer .done (f.feedLimit?.any (fun w => feedStored w ≠ w)) [] with
        bus := s.bus.modify n (fun p => p.configure f) } n (f.service?.bind serviceOf?) := by
  unfold State.setPostRequest
  rw [postOf_eq h]
  rfl

/-! ### What SET POST stores -/

/-- The settings a SET POST gives to a post, one by one: those it names, and else those held; none of the two that an
OCCUPIED or BOUND post may not change is changed there. -/
def SetPostGives (f : SetPostFields) (p : Post) (h : Heater) (feed : Nat) (q : PollMode) : Prop :=
  (f.mask.getLsbD 1 = true → f.interface_ = (match h with | .continuous => 0 | .stepped => 1 | .switched => 2)) ∧
  (f.mask.getLsbD 1 = false → h = p.heater) ∧
  (f.mask.getLsbD 2 = true → feed = min 10000 (max 1000 f.feedLimit) / 100 * 100) ∧
  (f.mask.getLsbD 2 = false → feed = p.feedLimit) ∧
  (f.mask.getLsbD 3 = true → f.pollMode = (match q with | .latent => 0 | .direct => 1)) ∧
  (f.mask.getLsbD 3 = false → q = p.pollMode) ∧
  ((p.state = .occupied ∨ p.state = .bound) → h = p.heater ∧ feed = p.feedLimit)

theorem SetPostGives.configure {f : SetPostFields} {p : Post} {h : Heater} {feed : Nat} {q : PollMode}
    (g : SetPostGives f p h feed q) : p.configure f = { p with heater := h, feedLimit := feed, pollMode := q } := by
  obtain ⟨hnamed, hheld, fnamed, fheld, qnamed, qheld, _⟩ := g
  have hh : (f.heater?.bind heaterOf?).getD p.heater = h := by
    unfold SetPostFields.heater?
    cases hb : f.mask.getLsbD 1 with
    | false => exact (hheld hb).symm
    | true => exact congrArg (Option.getD · _) (heaterOf_eq_some_iff.mpr (hnamed hb))
  have hf : (f.feedLimit?.map feedStored).getD p.feedLimit = feed := by
    unfold SetPostFields.feedLimit?
    cases hb : f.mask.getLsbD 2 with
    | false => exact (fheld hb).symm
    | true => exact (fnamed hb).symm
  have hq : (f.pollMode?.bind pollModeOf?).getD p.pollMode = q := by
    unfold SetPostFields.pollMode?
    cases hb : f.mask.getLsbD 3 with
    | false => exact (qheld hb).symm
    | true => exact congrArg (Option.getD · _) (pollModeOf_eq_some_iff.mpr (qnamed hb))
  unfold Post.configure
  rw [hh, hf, hq]

theorem SetPostGives.not_badField {f : SetPostFields} {p : Post} {h : Heater} {feed : Nat} {q : PollMode}
    (g : SetPostGives f p h feed q) (hserv : f.mask.getLsbD 0 = true → f.service ≤ 1) :
    ¬ SetPostFields.badField f = true := by
  obtain ⟨hnamed, _, _, _, qnamed, _, _⟩ := g
  rw [setPostBadField_iff]
  rintro (⟨hb, hv⟩ | ⟨hb, hv⟩ | ⟨hb, hv⟩)
  · have := hserv hb
    omega
  · rw [hnamed hb] at hv
    cases h <;> simp at hv
  · rw [qnamed hb] at hv
    cases q <;> simp at hv

theorem SetPostGives.not_busy {f : SetPostFields} {p : Post} {h : Heater} {feed : Nat} {q : PollMode}
    (g : SetPostGives f p h feed q) :
    ¬ (SetPostFields.changesFeed f p = true ∧ (p.state = .occupied ∨ p.state = .bound)) := by
  obtain ⟨hnamed, _, fnamed, _, _, _, hheld⟩ := g
  rintro ⟨hmoves, hstate⟩
  obtain ⟨rfl, rfl⟩ := hheld hstate
  rcases (changesFeed_iff f p).mp hmoves with ⟨hb, hv⟩ | ⟨hb, hv⟩
  · exact hv (hnamed hb)
  · exact hv (fnamed hb).symm

theorem SetPostGives.clamped {f : SetPostFields} {p : Post} {h : Heater} {feed : Nat} {q : PollMode}
    (g : SetPostGives f p h feed q) :
    f.feedLimit?.any (fun w => decide (feedStored w ≠ w)) = (f.mask.getLsbD 2 && decide (feed ≠ f.feedLimit)) := by
  obtain ⟨_, _, fnamed, _, _, _, _⟩ := g
  unfold SetPostFields.feedLimit?
  cases hb : f.mask.getLsbD 2 with
  | false => rfl
  | true =>
    rw [fnamed hb]
    rfl

/-- A SET POST that is neither BAD FIELD nor BUSY stores its settings and then takes the service. -/
theorem exec_setPost_stored {s : State} (hr : s.ready) {tag : Byte} {f : SetPostFields} {n : Fin 24} {h : Heater}
    {feed : Nat} {q : PollMode} (hn : f.post = n) (g : SetPostGives f s.bus.posts[n] h feed q)
    (hserv : f.mask.getLsbD 0 = true → f.service ≤ 1) : exec (.setPost tag f) s = .next (State.finish (State.setService
      { s.replied (.setPost f) tag .done (f.mask.getLsbD 2 && feed ≠ f.feedLimit) [] with
        bus := { s.bus with
          posts := s.bus.posts.set n { s.bus.posts[n] with heater := h, feedLimit := feed, pollMode := q } } }
      n (f.service?.bind serviceOf?))) := by
  have hposts : (s.bus.modify n fun p => p.configure f) = { s.bus with
      posts := s.bus.posts.set n { s.bus.posts[n] with heater := h, feedLimit := feed, pollMode := q } } := by
    unfold Bus.modify
    dsimp only
    rw [g.configure]
  rw [exec_setPost hr, setPostRequest_post _ hn, if_neg (g.not_badField hserv),
    show (s.beginRequest (.setPost f) tag).bus = s.bus from rfl, if_neg g.not_busy, g.clamped, beginRequest_answer, hposts]

/-! ### READ POST (R63) -/

theorem bits_eq_sum (a b c d e f : Bool) :
    bitAt a 0 ||| bitAt b 1 ||| bitAt c 2 ||| bitAt d 3 ||| bitAt e 4 ||| bitAt f 5 =
      (if a then 1 else 0) + (if b then 2 else 0) + (if c then 4 else 0) + (if d then 8 else 0) +
        (if e then 16 else 0) + (if f then 32 else 0) := by
  revert a b c d e f
  decide

/-- The byte of a post's indicators. -/
theorem postFlagByte_eq (p : Post) :
    bitAt p.silent 0 ||| bitAt p.sent.isNone 1 ||| bitAt p.finalOwed 2 ||| bitAt p.baseline.isSome 3 |||
        bitAt p.roundMark 4 =
      (if p.silent then 1 else 0) + (if p.sent = none then 2 else 0) + (if p.finalOwed then 4 else 0) +
        (if p.baseline = none then 0 else 8) + (if p.roundMark then 16 else 0) := by
  have hsum := bits_eq_sum p.silent p.sent.isNone p.finalOwed p.baseline.isSome p.roundMark false
  rw [show bitAt false 5 = 0#8 from rfl, BitVec.or_zero] at hsum
  rw [hsum]
  cases p.sent <;> cases p.baseline <;> simp

/-- The presence byte of a post's current readings. -/
theorem presenceByte_eq (cabin outside : Option Int) : bitAt cabin.isSome 0 ||| bitAt outside.isSome 1 =
    (if cabin = none then 0 else 1) + (if outside = none then 0 else 2) := by
  cases cabin <;> cases outside <;> simp [bitAt]

/-- The presence byte of a pending report. -/
theorem heldByte_eq (r : PendingReport) :
    bitAt r.vehicle.isSome 0 ||| bitAt r.cabin.isSome 1 ||| bitAt r.outside.isSome 2 |||
        bitAt (r.outside.any Option.isSome) 3 =
      (if r.vehicle = none then 0 else 1) + (if r.cabin = none then 0 else 2) +
        (match r.outside with | none => 0 | some none => 4 | some (some _) => 12 : Byte) := by
  obtain ⟨vehicle, cabin, outside⟩ := r
  cases vehicle <;> cases cabin <;> rcases outside with _ | _ | _ <;> simp [bitAt]

theorem postImage_length (p : Post) (n : Fin 24) (entry : Option Handle) : (p.image n entry).length = 34 := by
  simp [Post.image, be16_length, beS16_length, handleBytes_length]

/-- Settles O21. -/
theorem setPostAndRead : Obligations.SetPostAndRead := by
  refine ⟨fun s tag f h => ⟨fun hf => ?noPost, fun n outside hn ho => ⟨fun hout => ?badField, fun hin hstate hmoves =>
      ?busy⟩⟩, fun s tag f n h feed q hr hn hserv g1 g2 g3 g4 g5 g6 g7 => ?stored,
    fun s tag k h => ⟨fun n p image hk hp himage => ?read, fun hk => ?readNone⟩⟩
  case noPost =>
    rw [exec_setPost h, setPostRequest_noPost _ hf]
    rfl
  case badField =>
    rw [exec_setPost h, setPostRequest_post _ hn, if_pos ((setPostBadField_iff f).mpr (ho.mp hout))]
    rfl
  case busy =>
    rw [exec_setPost h, setPostRequest_post _ hn, if_neg fun hb => hin (ho.mpr ((setPostBadField_iff f).mp hb)),
      if_pos ⟨(changesFeed_iff f _).mpr hmoves, hstate⟩]
    rfl
  case stored =>
    rw [exec_setPost_stored hr hn ⟨g1, g2, g3, g4, g5, g6, g7⟩ (fun hb => absurd (hserv.symm.trans hb) Bool.false_ne_true)]
    unfold SetPostFields.service?
    rw [if_neg (by rw [hserv]; nofun)]
    rfl
  case read =>
    have hbytes : image = p.image n s.store.table[n] := by
      rw [himage]
      unfold Post.image
      rw [postFlagByte_eq, presenceByte_eq, heldByte_eq]
      simp only [List.append_assoc, List.cons_append, List.nil_append]
      congr
    subst hp
    rw [hbytes]
    refine ⟨?_, postImage_length _ _ _⟩
    rw [show Instr.readPost tag k = (Request.readPost k).command tag from rfl, exec_ready (r := .readPost k) h nofun]
    show Host.Outcome.next ((s.beginRequest _ tag).readPostRequest k).finish = _
    unfold State.readPostRequest
    rw [postOf_eq hk]
    rfl
  case readNone =>
    rw [show Instr.readPost tag k = (Request.readPost k).command tag from rfl, exec_ready (r := .readPost k) h nofun]
    show Host.Outcome.next ((s.beginRequest _ tag).readPostRequest k).finish = _
    unfold State.readPostRequest
    rw [postOf_none hk]
    rfl

/-! ### The service (R61, R62) -/

/-- A service OUT is noted against the binding attempt in flight at the post, if there is one. -/
theorem noteServiceOut_eq {r a : Arbiter} {n : Fin 24}
    (h : (∃ note, r.inFlight = some (.bind n note) ∧
        a = { r with inFlight := some (.bind n { note with serviceOut := true }) }) ∨
      (∀ note, r.inFlight ≠ some (.bind n note)) ∧ a = r) : r.noteServiceOut n = a := by
  unfold Arbiter.noteServiceOut
  rcases h with ⟨note, hr, rfl⟩ | ⟨hr, rfl⟩
  · rw [hr]
    exact if_pos rfl
  · split
    case h_1 p note hp =>
      refine if_neg fun q => hr note ?_
      rw [hp, q]
    case h_2 => rfl

theorem boundAccess_bound (table : Vector (Option Handle) 24) (n : Fin 24) (x : PostState) (k : Handle → PostAccess) :
    (if x = .bound then boundAccess table n k else []) =
      match x, table[n] with
      | .bound, some h => [k h]
      | _, _ => [] := by
  unfold boundAccess
  cases x <;> cases table[n] <;> rfl

/-- Settles O22. -/
theorem setPostService : Obligations.SetPostService := by
  intro s t tag f n h feed q p hr hn hserv g1 g2 g3 g4 g5 g6 g7 ht hp
  have hexec (v : Bool) (hv : serviceOf? f.service = some v) : exec (.setPost tag f) s = .next (State.finish
      (State.setService { t with bus := { s.bus with posts := s.bus.posts.set n p } } n (some v))) := by
    have hle : f.service ≤ 1 := by
      rw [← not_lt, ← serviceOf_isNone_iff, hv]
      nofun
    rw [exec_setPost_stored hr hn ⟨g1, g2, g3, g4, g5, g6, g7⟩ fun _ => hle, ht, hp]
    unfold SetPostFields.service?
    rw [if_pos hserv, Option.bind_some, hv]
  have harbiter : t.arbiter = s.arbiter := by
    rw [ht]
    rfl
  have hstore : t.store = s.store := by
    rw [ht]
    rfl
  have hplug : t.plug = s.plug := by
    rw [ht]
    rfl
  have hattention : t.attention = s.attention := by
    rw [ht]
    rfl
  have hpost : (s.bus.posts.set n p)[n] = p := vector_set_eq _ _ _
  refine ⟨fun a hv hin ha => ?out, fun hv hin hlow => ?low, fun hv hin hhigh => ?high, fun hv => ?held⟩
  case out =>
    rw [hexec false (by rw [hv]; rfl)]
    unfold State.setService Bus.serviceOut Bus.modify
    dsimp only
    rw [hpost, if_pos hin, boundAccess_bound, harbiter, noteServiceOut_eq ha, hstore, Vector.set_set]
    rfl
  case low =>
    rw [hexec true (by rw [hv]; rfl)]
    unfold State.setService Bus.serviceIn Bus.modify
    dsimp only
    rw [hpost, if_neg (by rw [hin]; nofun), hplug, hlow, Vector.set_set]
    rfl
  case high =>
    rw [hexec true (by rw [hv]; rfl)]
    unfold State.setService Bus.serviceIn Bus.plugIn Bus.notePlugIn Bus.modify
    dsimp only
    rw [hpost, if_neg (by rw [hin]; nofun), hplug, hhigh, hattention, if_pos rfl, if_pos rfl, vector_set_eq, if_pos ⟨rfl, rfl⟩,
      Vector.set_set, Vector.set_set]
    rfl
  case held =>
    rcases hv with ⟨hv, hin⟩ | ⟨hv, hin⟩
    · rw [hexec false (by rw [hv]; rfl)]
      unfold State.setService
      dsimp only
      rw [hpost, if_neg (by rw [hin]; nofun)]
    · rw [hexec true (by rw [hv]; rfl)]
      unfold State.setService
      dsimp only
      rw [hpost, if_pos hin]

end Sys2Proof.Machine

/-! SET CLASS, CLEAR CLASS and READ CLASS (06 section 7.1), and the attention unit's requests (10). -/

namespace Sys2Proof.Machine

/-! ### The class table (R98 to R102) -/

theorem exec_setClass {s : State} (h : s.ready) (tag : Byte) (f : SetClassFields) :
    exec (.setClass tag f) s = .next ((s.beginRequest (.setClass f) tag).setClassRequest f).finish :=
  exec_ready (r := .setClass f) h nofun tag

theorem exec_clearClass {s : State} (h : s.ready) (tag : Byte) (k : Nat) :
    exec (.clearClass tag k) s = .next ((s.beginRequest (.clearClass k) tag).clearClassRequest k).finish :=
  exec_ready (r := .clearClass k) h nofun tag

theorem exec_readClass {s : State} (h : s.ready) (tag : Byte) (k : Nat) :
    exec (.readClass tag k) s = .next ((s.beginRequest (.readClass k) tag).readClassRequest k).finish :=
  exec_ready (r := .readClass k) h nofun tag

/-- The class table's answer to a SET CLASS whose clamped parameters are `x`. -/
theorem applyClass_eq (s : State) (r : Request) (tag : Byte) (c : Fin 16) (f : SetClassFields) (x : ClassParams)
    (hx : classClamped f = x) : (s.beginRequest r tag).applyClass c f =
      if s.classes[c].params.any (fun p => p.pmax ≠ x.pmax ∨ p.pmin ≠ x.pmin) = true ∧
          s.classes[c].users.any
            (fun n => (s.store.dir n).state = some .heating ∨ (s.store.dir n).state = some .holding) = true then
        s.replied r tag .inUse false []
      else
        { s.replied r tag .done (x ≠ { c := f.c, g := f.g, pmax := f.pmax, pmin := f.pmin, h := f.h, m := f.m }) [] with
          classes := s.classes.set c { s.classes[c] with params := some x }
          planner := { s.planner with replan := true } } := by
  unfold State.applyClass State.changesHeater State.classHeating
  rw [hx]
  simp only [Bool.and_eq_true, Bool.decide_or]
  rfl

theorem setClassRequest_idle {s : State} {f : SetClassFields} {c : Fin 16} (hc : f.cls = c)
    (hround : s.planner.round = none) : s.setClassRequest f = s.applyClass c f := by
  unfold State.setClassRequest
  rw [classOf_eq hc]
  exact if_neg (by simp [hround])

theorem classImage_some {e : ClassEntry} {p : ClassParams} (n : Fin 16) (h : e.params = some p) :
    e.image n = [byte n, 1, byte p.c, byte p.g, byte (p.pmax / 256), byte p.pmax, byte (p.pmin / 256), byte p.pmin,
      byte p.h, byte p.m, byte e.users.length] := by
  unfold ClassEntry.image
  rw [h]
  rfl

theorem classImage_none {e : ClassEntry} (n : Fin 16) (h : e.params = none) :
    e.image n = [byte n, 0, 0, 0, 0, 0, 0, 0, 0, 0, byte e.users.length] := by
  unfold ClassEntry.image
  rw [h]
  rfl

/-- Settles O23. -/
theorem classRequests : Obligations.ClassRequests := by
  refine ⟨fun s tag f h => ⟨fun hf => ?setNone, fun c hc hround => ?held, fun c x hc hround hx => ?applied⟩,
    fun s tag k => ⟨fun h => ⟨fun hk => ?clearNone, fun c hc => ?clear⟩,
      fun h => ⟨fun hk => ?readNone, fun c hc => ⟨fun p hp => ?readSome, fun hp => ?readUndefined⟩⟩⟩⟩
  case setNone =>
    rw [exec_setClass h, State.setClassRequest, classOf_none hf]
    rfl
  case held =>
    rw [exec_setClass h, State.setClassRequest, classOf_eq hc]
    exact congrArg (fun t => Host.Outcome.next (State.finish t)) (if_pos hround)
  case applied =>
    rw [exec_setClass h, setClassRequest_idle (s := s.beginRequest (.setClass f) tag) hc hround,
       applyClass_eq s _ tag c f x (by rw [hx]; rfl)]
  case clearNone =>
    rw [exec_clearClass h, State.clearClassRequest, classOf_none hk]
    rfl
  case clear =>
    rw [exec_clearClass h, State.clearClassRequest, classOf_eq hc]
    dsimp only
    rw [show (s.beginRequest (.clearClass k) tag).classes = s.classes from rfl]
    by_cases hu : s.classes[c].users = []
    · rw [if_pos (by rw [hu]; rfl), if_pos hu, ← hu]
      rfl
    · rw [if_neg (by simpa using hu), if_neg hu]
      rfl
  case readNone =>
    rw [exec_readClass h, State.readClassRequest, classOf_none hk]
    rfl
  case readSome =>
    rw [exec_readClass h, State.readClassRequest, classOf_eq hc]
    dsimp only
    rw [show (s.beginRequest (.readClass k) tag).classes = s.classes from rfl, classImage_some c hp, hc]
    rfl
  case readUndefined =>
    rw [exec_readClass h, State.readClassRequest, classOf_eq hc]
    dsimp only
    rw [show (s.beginRequest (.readClass k) tag).classes = s.classes from rfl, classImage_none c hp, hc]
    rfl

/-! ### The flags of a source (R156 to R158) -/

theorem sourcePost_of_post {n : Fin 32} {p : Fin 24} (h : n.val = 8 + p.val) : sourcePost? n = some p := by
  unfold sourcePost?
  rw [dif_pos (by omega)]
  congr
  omega

theorem sourcePost_of_site {n : Fin 32} (h : n.val < 8) : sourcePost? n = none := by
  unfold sourcePost?
  rw [dif_neg (by omega)]

theorem flags_post (s : State) {n : Fin 32} {p : Fin 24} (h : n.val = 8 + p.val) : s.flags n = s.postFlags p := by
  unfold State.flags
  rw [sourcePost_of_post h]

theorem flags_site (s : State) {n : Fin 32} (h : n.val < 8) : s.flags n = bitAt (s.siteFlag n) 0 := by
  unfold State.flags
  rw [sourcePost_of_site h]

theorem bitAt_eq_one_iff (b : Bool) : bitAt b 0 = 1 ↔ b = true := by
  cases b <;> decide

theorem bitAt_zero_or_one (b : Bool) : bitAt b 0 = 0 ∨ bitAt b 0 = 1 := by
  cases b <;> decide

theorem postFlags_eq (s : State) (p : Fin 24) : s.postFlags p =
    (if s.attention.posts[p].pluggedIn then 1 else 0) + (if s.attention.posts[p].pluggedOut then 2 else 0) +
      (if s.attention.posts[p].call then 4 else 0) + (if s.bus.posts[p].condition = .unordered then 8 else 0) +
      (if s.bus.posts[p].condition = .conflict then 16 else 0) + (if s.bus.posts[p].silent then 32 else 0) := by
  unfold State.postFlags
  rw [bits_eq_sum]
  simp only [decide_eq_true_eq]

theorem anyBehind_iff (st : Store) : st.anyBehind = true ↔
    ∃ (k : Fin 64) (r : Stored), st.slots[k].record = some r ∧ r.order.behind = true := by
  unfold Store.anyBehind
  simp only [List.any_eq_true, Vector.mem_toList_iff, Vector.mem_iff_getElem, option_any_iff, Option.mem_def]
  constructor
  · rintro ⟨_, ⟨i, hi, rfl⟩, r, hr, hb⟩
    exact ⟨⟨i, hi⟩, r, hr, hb⟩
  · rintro ⟨k, r, hr, hb⟩
    exact ⟨_, ⟨k, k.isLt, rfl⟩, r, hr, hb⟩

theorem anyClosed_iff (st : Store) : st.anyClosed = true ↔ ∃ k : Fin 64, (st.dir k).occupancy = .closed := by
  unfold Store.anyClosed
  simp only [List.any_eq_true, Vector.mem_toList_iff, Vector.mem_iff_getElem, decide_eq_true_eq]
  constructor
  · rintro ⟨_, ⟨i, hi, rfl⟩, hc⟩
    exact ⟨⟨i, hi⟩, hc⟩
  · rintro ⟨k, hc⟩
    exact ⟨_, ⟨k, k.isLt, rfl⟩, hc⟩

theorem full_iff (st : Store) : st.full = true ↔ ∀ k : Fin 64, (st.dir k).occupancy ≠ .free := by
  unfold Store.full
  simp only [List.all_eq_true, Vector.mem_toList_iff, Vector.mem_iff_getElem, decide_eq_true_eq]
  constructor
  · intro h k
    exact h _ ⟨k, k.isLt, rfl⟩
  · rintro h _ ⟨i, hi, rfl⟩
    exact h ⟨i, hi⟩

/-- The flag of a site source stands exactly with its event or condition. -/
theorem flags_site_iff (s : State) {n : Fin 32} {k : Nat} (hn : n.val = k) (hk : k < 8) :
    s.flags n = 1 ↔ s.siteFlag k = true := by
  subst hn
  rw [flags_site s hk, bitAt_eq_one_iff]

/-! ### READ ATTENTION (R160) -/

theorem exec_readAttention {s : State} (h : s.ready) (tag : Byte) (source : Option Nat) :
    exec (.readAttention tag source) s =
      .next ((s.beginRequest (.readAttention source) tag).readAttentionRequest source).finish :=
  exec_ready (r := .readAttention source) h nofun tag

theorem sourceOf_none {k : Nat} (h : 31 < k) : sourceOf? k = none := by
  unfold sourceOf?
  rw [dif_neg (by omega)]

/-- The lowest-numbered source that is pending and enabled is reported first. -/
theorem waitingSources_head {s : State} {n : Fin 32} (hp : s.sourcePending n = true) (he : s.sourceEnabled n = true)
    (hm : ∀ m < n, ¬ (s.sourcePending m = true ∧ s.sourceEnabled m = true)) : s.waitingSources.head? = some n := by
  unfold State.waitingSources
  rw [List.head?_filter]
  exact find_finRange _ n (by rw [hp, he]; rfl) fun m hlt => by simpa using hm m hlt

theorem waitingSources_nil {s : State} (h : ∀ n : Fin 32, ¬ (s.sourcePending n = true ∧ s.sourceEnabled n = true)) :
    s.waitingSources = [] := by
  unfold State.waitingSources
  rw [List.filter_eq_nil_iff]
  intro n _
  simpa using h n

theorem attentionImage_none {s : State} (h : ∀ n : Fin 32, ¬ (s.sourcePending n = true ∧ s.sourceEnabled n = true)) :
    s.attentionImage none = [0xFF, 0, 0, 0, 0, 0, 0, 0] := by
  unfold State.attentionImage
  rw [waitingSources_nil h]
  rfl

theorem sourceValues_eq (s : State) (n : Fin 32) : s.sourceValues n =
    if n = 1 then
      [(match s.supply.mode with | .normal => 0 | .limited => 1 | .shed => 2 | .restoring => 3 : Byte),
        (match s.supply.forced with | .none => 0 | .limited => 1 | .shed => 2 : Byte),
        if s.link.autonomy then 1 else 0, 0]
    else if n = 4 then
      match s.attention.dropped with
      | none => [0xFF, 0xFF, 0, 0]
      | some d => [byte d.change.handle.slot, byte d.change.handle.gen, d.change.code, d.reason.code]
    else if h : 8 ≤ n.val then
      [(match s.bus.posts[n.val - 8].state with | .out => 0 | .empty => 1 | .occupied => 2 | .bound => 3 : Byte),
        (match s.bus.posts[n.val - 8].lastCall with | .none => 0 | .leaving => 1 | .help => 2 : Byte), 0, 0]
    else [0, 0, 0, 0] := by
  unfold State.sourceValues
  by_cases h : 8 ≤ n.val
  · have h1 : n ≠ 1 := by
      rintro rfl
      exact absurd h (by decide)
    have h4 : n ≠ 4 := by
      rintro rfl
      exact absurd h (by decide)
    rw [sourcePost_of_post (p := ⟨n.val - 8, by omega⟩) (by simp; omega)]
    dsimp only
    rw [if_neg h1, if_neg h4, dif_pos h]
    rfl
  · rw [sourcePost_of_site (by omega), dif_neg h]
    rfl

theorem pendingByte_eq (a b : Bool) : bitAt a 0 ||| bitAt b 1 = (if a then 1 else 0) + (if b then 2 else 0) := by
  cases a <;> cases b <;> decide

/-- Settles O24. -/
theorem attentionReads : Obligations.AttentionReads := by
  refine ⟨fun s tag image himage h => ?reads, fun s n => ⟨fun p hn => ?post, fun hn => ?site, ?_, ?_, ?_, ?_, ?_, ?_, ?_, ?_⟩⟩
  case reads =>
    have hbytes (n : Fin 32) : image n = s.attentionImage (some n) := by
      rw [himage n]
      unfold State.attentionImage
      dsimp only
      rw [sourceValues_eq, pendingByte_eq]
      rfl
    refine ⟨fun k hk => ?_, fun n => ?_, fun n hp he hm => ?_, fun hnone => ?_⟩
    · rw [exec_readAttention h, State.readAttentionRequest, sourceOf_none hk]
      rfl
    · rw [exec_readAttention h, State.readAttentionRequest, sourceOf_eq (n := n) rfl, hbytes]
      rfl
    · rw [exec_readAttention h, State.readAttentionRequest, hbytes,
        show (s.beginRequest (.readAttention none) tag).waitingSources = s.waitingSources from rfl,
        waitingSources_head hp he hm]
      rfl
    · rw [exec_readAttention h, State.readAttentionRequest,
        show (s.beginRequest (.readAttention none) tag).waitingSources = s.waitingSources from rfl,
        show (s.beginRequest (.readAttention none) tag).attentionImage = s.attentionImage from rfl,
        waitingSources_nil hnone, List.head?_nil, attentionImage_none hnone]
      rfl
  case post => rw [flags_post s hn, postFlags_eq]
  case site =>
    rw [flags_site s hn]
    exact bitAt_zero_or_one _
  · rintro rfl
    exact (flags_site_iff s (k := 0) rfl (by decide)).trans (anyBehind_iff _)
  · rintro rfl
    exact flags_site_iff s (k := 1) rfl (by decide)
  · rintro rfl
    exact flags_site_iff s (k := 2) rfl (by decide)
  · rintro rfl
    exact flags_site_iff s (k := 3) rfl (by decide)
  · rintro rfl
    exact flags_site_iff s (k := 4) rfl (by decide)
  · rintro rfl
    exact (flags_site_iff s (k := 5) rfl (by decide)).trans (anyClosed_iff _)
  · rintro rfl
    exact (flags_site_iff s (k := 6) rfl (by decide)).trans (full_iff _)
  · rintro rfl
    refine (flags_site_iff s (k := 7) rfl (by decide)).trans ?_
    simp [State.siteFlag]

/-! ### SET MASKS and the attention line (R159, R162) -/

/-- The flags of a source read the store, the clock, the event flags, and of each post its condition and SILENT. -/
theorem flags_congr {s t : State} (hstore : t.store = s.store) (hclock : t.clock = s.clock)
    (hposts : t.attention.posts = s.attention.posts) (hmode : t.attention.modeChange = s.attention.modeChange)
    (hmeter : t.attention.meterOverrange = s.attention.meterOverrange)
    (hround : t.attention.roundOverrun = s.attention.roundOverrun)
    (hdropped : t.attention.changeDropped = s.attention.changeDropped)
    (hbus : ∀ p : Fin 24, t.bus.posts[p].condition = s.bus.posts[p].condition ∧
      t.bus.posts[p].silent = s.bus.posts[p].silent) (n : Fin 32) : t.flags n = s.flags n := by
  have hpost (p : Fin 24) : t.postFlags p = s.postFlags p := by
    obtain ⟨hcond, hsilent⟩ := hbus p
    unfold State.postFlags
    rw [hposts, hcond, hsilent]
  have hsite : t.siteFlag = s.siteFlag := by
    funext k
    unfold State.siteFlag
    rw [hstore, hclock, hmode, hmeter, hround, hdropped]
  unfold State.flags
  simp only [hpost, hsite]

theorem finish_flags (s : State) (n : Fin 32) : s.finish.flags n = s.flags n := by
  refine flags_congr (by simp) (by simp) (by simp) (by simp) (by simp) (by simp) (by simp) (fun p => ?_) n
  rw [finish_post]
  split <;> exact ⟨rfl, rfl⟩

/-- Settles O25. -/
theorem masksAndLine : Obligations.MasksAndLine := by
  refine ⟨fun s tag m g h => ⟨_, exec_ready (r := .setMasks m g) h nofun tag, rfl, fun n => ?flags⟩,
    fun s n => ⟨?pending, ?enabled⟩, fun s => ?line⟩
  case flags =>
    rw [finish_flags]
    exact flags_congr rfl rfl rfl rfl rfl rfl rfl (fun _ => ⟨rfl, rfl⟩) n
  case pending => exact bne_iff_ne
  case enabled => exact Bool.and_eq_true_iff
  case line =>
    unfold State.attentionLine State.waitingSources
    simp

/-! ### CLEAR ATTENTION (R161) -/

theorem exec_clearAttention {s : State} (h : s.ready) (tag : Byte) (k : Nat) (set : Byte) :
    exec (.clearAttention tag k set) s =
      .next ((s.beginRequest (.clearAttention k set) tag).clearAttentionRequest k set).finish :=
  exec_ready (r := .clearAttention k set) h nofun tag

theorem clearAttentionRequest_source (s : State) {k : Nat} {n : Fin 32} (h : k = n) (set : Byte) :
    s.clearAttentionRequest k set =
      if flagSetOk n set = true then
        State.answer { s with attention := s.attention.clear n set } .done false
          [({ s with attention := s.attention.clear n set } : State).flags n]
      else s.refuse .badField := by
  unfold State.clearAttentionRequest
  rw [sourceOf_eq h]

theorem flagSetOk_post {n : Fin 32} {p : Fin 24} (h : n.val = 8 + p.val) (set : Byte) :
    flagSetOk n set = true ↔ set.toNat ≤ 63 := by
  unfold flagSetOk
  rw [sourcePost_of_post h, decide_eq_true_iff]
  omega

theorem flagSetOk_site {n : Fin 32} (h : n.val < 8) (set : Byte) : flagSetOk n set = true ↔ set.toNat ≤ 1 := by
  unfold flagSetOk
  rw [sourcePost_of_site h, decide_eq_true_iff]
  omega

/-- A source that refuses the flags named. -/
theorem flagSetOk_false {n : Fin 32} {set : Byte} (h : (n.val < 8 ∧ 1 < set.toNat) ∨ 63 < set.toNat) :
    ¬ flagSetOk n set = true := by
  by_cases hn : n.val < 8
  · rw [flagSetOk_site hn]
    omega
  · rw [flagSetOk_post (p := ⟨n.val - 8, by omega⟩) (by simp; omega)]
    omega

theorem siteFlagSet_bit {set : Byte} (h : set.toNat ≤ 1) : set.getLsbD 0 = decide (set = 1) := by
  have hcases : set = 0 ∨ set = 1 := by
    rcases Nat.le_one_iff_eq_zero_or_eq_one.mp h with h0 | h1
    · exact .inl (BitVec.eq_of_toNat_eq h0)
    · exact .inr (BitVec.eq_of_toNat_eq h1)
  rcases hcases with rfl | rfl <;> decide

theorem clear_post (a : Attention) {n : Fin 32} {p : Fin 24} (h : n.val = 8 + p.val) (set : Byte) :
    a.clear n set = { a with posts := a.posts.set p (a.posts[p].clear set) } := by
  unfold Attention.clear
  rw [sourcePost_of_post h]

theorem clear_site (a : Attention) {k : Nat} (h : k < 8) {set : Byte} (hset : set.toNat ≤ 1) :
    a.clear ⟨k, by omega⟩ set = { a with
      modeChange := a.modeChange && !(k = 1 && set = 1)
      meterOverrange := a.meterOverrange && !(k = 2 && set = 1)
      roundOverrun := a.roundOverrun && !(k = 3 && set = 1)
      changeDropped := a.changeDropped && !(k = 4 && set = 1) } := by
  unfold Attention.clear
  rw [sourcePost_of_site h, siteFlagSet_bit hset]
  simp only [Fin.ext_iff]
  rfl

/-- Settles O26. -/
theorem clearAttentionFlags : Obligations.ClearAttentionFlags := by
  intro s tag k set h
  refine ⟨fun hbad => ?refused, fun p hk hset => ?post, fun hk hset => ?site⟩
  case refused =>
    rw [exec_clearAttention h]
    by_cases hk : 31 < k
    · rw [State.clearAttentionRequest, sourceOf_none hk]
      rfl
    · rw [clearAttentionRequest_source _ (n := ⟨k, by omega⟩) rfl, if_neg (flagSetOk_false (by simpa using hbad.resolve_left hk))]
      rfl
  case post =>
    have hexec : exec (.clearAttention tag k set) s = _ := exec_clearAttention h tag k set
    rw [clearAttentionRequest_source _ (n := ⟨k, by omega⟩) rfl, if_pos ((flagSetOk_post hk set).mpr hset),
      flags_post _ hk, show (s.beginRequest (.clearAttention k set) tag).attention = s.attention from rfl,
      clear_post _ hk] at hexec
    exact ⟨_, _, hexec, rfl, rfl⟩
  case site =>
    have hexec : exec (.clearAttention tag k set) s = _ := exec_clearAttention h tag k set
    rw [clearAttentionRequest_source _ (n := ⟨k, by omega⟩) rfl, if_pos ((flagSetOk_site hk set).mpr hset),
      flags_site _ hk, show (s.beginRequest (.clearAttention k set) tag).attention = s.attention from rfl,
      clear_site _ hk hset] at hexec
    exact ⟨_, hexec, rfl⟩

end Sys2Proof.Machine

/-! The store accesses of the site link: CREATE_ACCESS, AMEND_ACCESS, WITHDRAW_ACCESS, FREE_ACCESS, READ_ACCESS and
INDEX_READ (01 sections 2.3 to 2.6; 02). -/

namespace Sys2Proof.Machine

/-! ### The checks against the index and the directory (R8, R12) -/

theorem duplicate_none_iff (st : Store) (v d : Nat) :
    st.duplicate v d none = true ↔ ∃ e ∈ st.vehicleEntries v, e.departure = d := by
  simp [Store.duplicate]

theorem duplicate_some_iff (st : Store) (v d : Nat) (h : Handle) :
    st.duplicate v d (some h) = true ↔ ∃ e ∈ st.vehicleEntries v, e.departure = d ∧ e.handle ≠ h := by
  simp [Store.duplicate]

theorem vehicleFull_none_iff (st : Store) (v : Nat) :
    st.vehicleFull v none = true ↔ 4 ≤ (st.vehicleEntries v).length := by
  simp [Store.vehicleFull, Config.vehicleLimit]

theorem vehicleFull_some_iff (st : Store) (v : Nat) (h : Handle) :
    st.vehicleFull v (some h) = true ↔ 4 ≤ ((st.vehicleEntries v).filter (fun e => e.handle ≠ h)).length := by
  simp [Store.vehicleFull, Config.vehicleLimit]

theorem freeSlot_none_iff (st : Store) : st.freeSlot.isNone = true ↔ ∀ n, (st.dir n).occupancy ≠ .free := by
  simp [Store.freeSlot, allSlots]

theorem freeSlot_some {st : Store} {n : Fin 64} (h : (st.dir n).occupancy = .free)
    (hm : ∀ m < n, (st.dir m).occupancy ≠ .free) : st.freeSlot = some n :=
  find_finRange _ n (by simpa using h) fun m hlt => by simpa using hm m hlt

/-! ### What a creation gives to the class table and the engine (R84, R97) -/

theorem mem_insertSlot (n m : Fin 64) (l : List (Fin 64)) : m ∈ insertSlot n l ↔ m = n ∨ m ∈ l := by
  induction l with
  | nil => simp [insertSlot]
  | cons x xs ih =>
    unfold insertSlot
    split
    · simp
    · split
      · simp_all
      · simp only [List.mem_cons, ih]
        tauto

theorem insertSlot_sorted (n : Fin 64) (l : List (Fin 64)) (h : l.Pairwise (fun x y => x < y)) :
    (insertSlot n l).Pairwise (fun x y => x < y) := by
  induction l with
  | nil => simp [insertSlot]
  | cons x xs ih =>
    obtain ⟨hx, hxs⟩ := List.pairwise_cons.mp h
    unfold insertSlot
    split
    · rename_i hlt
      exact List.pairwise_cons.mpr ⟨fun y hy => (List.mem_cons.mp hy).elim (fun e => e ▸ hlt) fun hy =>
        hlt.trans (hx y hy), h⟩
    · split
      · exact h
      · rename_i hnlt hne
        refine List.pairwise_cons.mpr ⟨fun y hy => ?_, ih hxs⟩
        rcases (mem_insertSlot n y xs).mp hy with rfl | hy
        · exact lt_of_le_of_ne (not_lt.mp hnlt) (Ne.symm hne)
        · exact hx y hy

/-- The binding attempts a PENDING order of a vehicle triggers. -/
theorem orderPending_spec (b : Bus) (v : Nat) : ∃ l : List (Fin 24),
    b.orderPending v = { b with queue := b.queue ++ l.map .bind } ∧ l.Pairwise (fun x y => x < y) ∧
      ∀ q, q ∈ l ↔ PostAccess.bind q ∉ b.queue ∧ b.posts[q].inService = true ∧ b.posts[q].state = .occupied ∧
        b.posts[q].silent = false ∧ b.posts[q].current.vehicle = v ∧ v ≠ 0 := by
  obtain ⟨l, heq, hsorted, hmem⟩ := trigger_spec b (fun q => b.posts[q].current.vehicle = v)
  refine ⟨l, heq, hsorted, fun q => (hmem q).trans ?_⟩
  rw [decide_eq_true_iff]
  constructor
  · rintro ⟨rfl, h1, h2, h3, h4, h5⟩
    exact ⟨h1, h2, h3, h4, rfl, h5⟩
  · rintro ⟨h1, h2, h3, h4, rfl, h5⟩
    exact ⟨rfl, h1, h2, h3, h4, h5⟩

/-! ### CREATE_ACCESS (R8 to R10) -/

theorem exec_createAccess {s : State} {f : PlaceFields} (h : s.arbiter.inFlight = some (.link (.create f))) :
    exec .createAccess s = .next (s.completed.createAccess f).finishLink := by
  show Host.Outcome.next _ = _
  rw [h]

/-- A create access that a check refuses. -/
theorem createAccess_refused {s : State} {f : PlaceFields} {tag : Byte} {x : Status}
    (h : s.serves (.create f) (.place f) tag) (hx : firstRefusal (s.createChecks f) = some x) :
    exec .createAccess s = .next (s.completed.replied (.place f) tag x false []).finish := by
  rw [exec_createAccess h.1]
  unfold State.createAccess
  rw [show s.completed.createChecks f = s.createChecks f from rfl, hx]
  dsimp only
  rw [serves_linkDone h s.completed rfl, finishLink_replied]

/-- The fields of a PLACE that a create access presents lie in their sets. -/
theorem placeChecks_noClock {s : State} {f : PlaceFields} (h : s.clock.isSet = false) (l : List (Bool × Status)) :
    firstRefusal (s.placeChecks f ++ l) = some .noClock := by
  simp [State.placeChecks, firstRefusal_cons, h]

theorem placeChecks_timed {s : State} {f : PlaceFields} (hset : s.clock.isSet = true) (hv0 : f.vehicle ≠ 0)
    (hv : f.vehicle ≤ 65534) (ht : f.tier ≤ 2) (hd : f.departure ≤ 10079)
    (hc : ∃ c : Fin 16, f.cls = c ∧ s.classes[c].params ≠ none) (he : f.presence.getLsbD 0 = true → f.earliest ≤ 10079)
    (l : List (Bool × Status)) : firstRefusal (s.placeChecks f ++ l) =
      if isBehind s.clock.minute f.departure = true then some .past else firstRefusal l := by
  obtain ⟨c, hcls, hp⟩ := hc
  have hfields : (!vehicleOk f.vehicle || (tierOf? f.tier).isNone || !minuteOk f.departure || (classOf? f.cls).isNone ||
      !f.earliest?.all minuteOk) = false := by
    rw [← Bool.not_eq_true, placeBadField_iff]
    have := c.isLt
    rintro (h | h | h | h | h | ⟨hb, h⟩)
    · exact hv0 h
    · omega
    · omega
    · omega
    · omega
    · have := he hb
      omega
  unfold State.placeChecks
  simp only [List.cons_append, List.nil_append, firstRefusal_cons, hset, hfields, classUndefined_false hcls hp,
    Bool.not_true, Bool.false_eq_true, if_false]

theorem newOrder_earliest (now : Nat) (f : PlaceFields) : clampEarliest now f.earliest? f.departure =
    if f.presence.getLsbD 0 = true then
      some (if 0 ≤ aheadMinutes now f.earliest ∧ aheadMinutes now f.departure < aheadMinutes now f.earliest then f.departure
        else f.earliest)
    else none := by
  unfold PlaceFields.earliest?
  split
  · exact clampEarliest_some now f.earliest f.departure
  · rfl

theorem newOrder_hold (f : PlaceFields) : f.hold?.map (min 60) =
    if f.presence.getLsbD 1 = true then some (min 60 f.hold) else none := by
  unfold PlaceFields.hold?
  split <;> rfl

/-- The clamped indicator of a PLACE. -/
theorem placeClamped_false_iff (now : Nat) (f : PlaceFields) : PlaceFields.clamped now f = false ↔
    min 280 (max 100 f.target) = f.target ∧
      (f.presence.getLsbD 0 = true → clampEarliest now f.earliest? f.departure = some f.earliest) ∧
      (f.presence.getLsbD 1 = true → f.hold ≤ 60) := by
  have hearliest : clampEarliest now f.earliest? f.departure = f.earliest? ↔
      (f.presence.getLsbD 0 = true → clampEarliest now f.earliest? f.departure = some f.earliest) := by
    unfold PlaceFields.earliest?
    cases f.presence.getLsbD 0
    · simp [clampEarliest]
    · simp
  have hhold : f.hold?.any (fun m => decide (60 < m)) = true ↔ f.presence.getLsbD 1 = true ∧ 60 < f.hold := by
    unfold PlaceFields.hold?
    exact (named_any_iff _ _ _).trans (and_congr_right' decide_eq_true_iff)
  rw [← hearliest, ← Bool.not_eq_true]
  unfold PlaceFields.clamped
  rw [Bool.or_eq_true, Bool.or_eq_true, decide_eq_true_iff, decide_eq_true_iff, hhold, clampTarget_eq]
  simp only [not_or, not_not, not_and, not_lt, and_assoc]

theorem tierOf_eq {k : Nat} {t : Tier} (h : k = match t with | .firstOut => 0 | .regular => 1 | .flexible => 2) :
    tierOf? k = some t := by
  subst h
  cases t <;> rfl

/-- The state with the record of a new order. -/
def State.withOrder (s : State) (f : PlaceFields) (c : Fin 16) (n : Fin 64) (o : Order) : State :=
  { s with
    store := s.store.create s.clock.minute n o
    classes := addUser s.classes c n
    bus := s.bus.orderPending f.vehicle }

/-- A create access that no check refuses. -/
theorem createAccess_accepted {s : State} {f : PlaceFields} {n : Fin 64} {c : Fin 16} {tier : Tier}
    (h : firstRefusal (s.createChecks f) = none) (hn : s.store.freeSlot = some n) (hc : classOf? f.cls = some c)
    (ht : tierOf? f.tier = some tier) : s.createAccess f =
      (s.withOrder f c n (newOrder s.clock.minute (s.store.slotHandle n) f c tier)).linkDone .done
        (PlaceFields.clamped s.clock.minute f) (s.store.slotHandle n).bytes := by
  unfold State.createAccess
  rw [h, hn, hc, ht]
  rfl

/-- Settles O27. -/
theorem createAccess : Obligations.CreateAccess := by
  refine ⟨fun s f tag h => ⟨fun hclock => ?noClock, fun hset hv0 hv ht hd hc he => ⟨fun hpast => ?past, fun hahead =>
      ⟨fun hdup => ?duplicate, fun hnew hfour => ?vehicleFull, fun hnew hroom hfull => ?tableFull⟩⟩⟩,
    fun s f tag c tier n e o clamped h hset hv1 hv ht hd hc hp hearly hahead hnew hroom hfree hlow he ho hclamped =>
      ?created, orderPending_spec, fun cs c n => ?addUser⟩
  case noClock => exact createAccess_refused h (placeChecks_noClock hclock _)
  case past =>
    refine createAccess_refused h ?_
    rw [State.createChecks, placeChecks_timed hset hv0 hv ht hd hc he, if_pos hpast]
  case duplicate =>
    refine createAccess_refused h ?_
    rw [State.createChecks, placeChecks_timed hset hv0 hv ht hd hc he, if_neg (by simp [hahead]), firstRefusal_cons,
      if_pos ((duplicate_none_iff _ _ _).mpr hdup)]
  case vehicleFull =>
    refine createAccess_refused h ?_
    rw [State.createChecks, placeChecks_timed hset hv0 hv ht hd hc he, if_neg (by simp [hahead]), firstRefusal_cons,
      if_neg (by rw [duplicate_none_iff]; simpa using hnew), firstRefusal_cons,
      if_pos ((vehicleFull_none_iff _ _).mpr hfour)]
  case tableFull =>
    refine createAccess_refused h ?_
    rw [State.createChecks, placeChecks_timed hset hv0 hv ht hd hc he, if_neg (by simp [hahead]), firstRefusal_cons,
      if_neg (by rw [duplicate_none_iff]; simpa using hnew), firstRefusal_cons,
      if_neg (by rw [vehicleFull_none_iff]; omega), firstRefusal_cons, if_pos ((freeSlot_none_iff _).mpr hfull)]
  case created =>
    have htier : f.tier ≤ 2 := by
      rw [ht]
      cases tier <;> simp
    have hchecks : firstRefusal (s.completed.createChecks f) = none := by
      rw [State.createChecks, placeChecks_timed (s := s.completed) hset (by omega) hv htier hd ⟨c, hc, hp⟩ hearly,
        if_neg (by simpa using hahead), firstRefusal_cons, if_neg (by rw [duplicate_none_iff]; simpa using hnew),
        firstRefusal_cons, if_neg (by rw [vehicleFull_none_iff]; simpa using hroom), firstRefusal_cons,
        if_neg (by rw [freeSlot_none_iff]; simpa using ⟨n, hfree⟩)]
      rfl
    have horder : newOrder s.clock.minute (s.store.slotHandle n) f c tier = o := by
      rw [ho, he]
      unfold newOrder
      rw [newOrder_earliest, newOrder_hold]
      rfl
    have hcl : PlaceFields.clamped s.clock.minute f = clamped := by
      rw [Bool.eq_iff_iff, ← not_iff_not, Bool.not_eq_true, Bool.not_eq_true, hclamped, placeClamped_false_iff,
        newOrder_earliest, ← he, ho]
    rw [exec_createAccess h.1, createAccess_accepted hchecks (freeSlot_some hfree hlow) (classOf_eq hc) (tierOf_eq ht),
      show s.completed.clock = s.clock from rfl, show s.completed.store = s.store from rfl, horder, hcl,
      serves_linkDone h (s.completed.withOrder f c n o) rfl, finishLink_replied]
    rfl
  case addUser =>
    exact ⟨insertSlot n cs[c].users, rfl, fun m => mem_insertSlot n m _, insertSlot_sorted n _⟩

end Sys2Proof.Machine

/-! AMEND_ACCESS, WITHDRAW_ACCESS, FREE_ACCESS, READ_ACCESS and INDEX_READ (01 sections 2.4 to 2.6; 02 sections 3.1, 3.3
and 3.7; 12 section 13.3). -/

namespace Sys2Proof.Machine

/-! ### AMEND_ACCESS (R11 to R13) -/

theorem exec_amendAccess {s : State} {f : AmendFields} (h : s.arbiter.inFlight = some (.link (.amend f))) :
    exec .amendAccess s = .next (s.completed.amendAccess f).finishLink := by
  show Host.Outcome.next _ = _
  rw [h]

theorem amendReplans_iff (o : Order) (now : Nat) (f : AmendFields) : amendReplans o now f = true ↔
    f.departure?.isSome ∨ f.target?.isSome ∨ f.cls?.isSome ∨ f.tier?.isSome ∨ f.setEarliest?.isSome ∨ f.clearsEarliest ∨
      (o.amend now f).earliest ≠ o.earliest := by
  simp only [amendReplans, AmendFields.retimes, Bool.or_eq_true, decide_eq_true_eq, or_assoc]

theorem amendFull_iff (st : Store) (h : Handle) (f : AmendFields) :
    f.vehicle?.any (fun v => st.vehicleFull v (some h)) = true ↔ f.vehicle?.isSome = true ∧
      4 ≤ ((st.vehicleEntries f.vehicle).filter (fun e => e.handle ≠ h)).length := by
  unfold AmendFields.vehicle?
  rw [named_any_iff, vehicleFull_some_iff]
  cases f.mask.getLsbD 4 <;> simp

theorem amendBus_eq (b : Bus) (f : AmendFields) :
    f.vehicle?.elim b b.orderPending = if f.vehicle?.isSome = true then b.orderPending f.vehicle else b := by
  unfold AmendFields.vehicle?
  cases f.mask.getLsbD 4 <;> rfl

/-- What an accepted AMEND that names a field changes. -/
def State.amended (s : State) (h : Handle) (o : Order) (f : AmendFields) : State :=
  { s with
    store :=
      if f.departure?.isSome ∨ f.vehicle?.isSome then
        ((s.store.writeOrder h.slot (o.amend s.clock.minute f)).indexRemove o.vehicle h).indexInsert s.clock.minute
          (o.amend s.clock.minute f).vehicle { handle := h, departure := (o.amend s.clock.minute f).departure }
      else s.store.writeOrder h.slot (o.amend s.clock.minute f)
    classes :=
      if f.cls?.isSome then addUser (dropUser s.classes h.slot) (o.amend s.clock.minute f).cls h.slot else s.classes
    planner :=
      if f.departure?.isSome ∨ f.target?.isSome ∨ f.cls?.isSome ∨ f.tier?.isSome ∨ f.setEarliest?.isSome ∨
          f.clearsEarliest ∨ (o.amend s.clock.minute f).earliest ≠ o.earliest then { s.planner with replan := true }
      else s.planner
    bus := if f.vehicle?.isSome then s.bus.orderPending f.vehicle else s.bus }

theorem amendApply_eq (s : State) (h : Handle) (o : Order) (f : AmendFields) : s.amendApply h o f =
    if f.mask.extractLsb' 0 9 = 0 then s.linkDone .done false h.bytes
    else (s.amended h o f).linkDone .done (amendClamped o s.clock.minute f) h.bytes := by
  have hplanner : (if amendReplans o s.clock.minute f = true then s.planner.setReplan else s.planner) = _ :=
    if_congr (amendReplans_iff o s.clock.minute f) rfl rfl
  have hstore : s.store.amend s.clock.minute h o f =
      if f.departure?.isSome ∨ f.vehicle?.isSome then _ else s.store.writeOrder h.slot (o.amend s.clock.minute f) :=
    if_congr (by simp) rfl rfl
  unfold State.amendApply AmendFields.namesAny
  rw [amendBus_eq, hplanner, hstore]
  by_cases hm : f.mask.extractLsb' 0 9 = 0
  · rw [if_pos hm, if_neg (by simp [hm])]
  · rw [if_neg hm, if_pos (by simpa using hm)]
    rfl

/-- The amend access on the record it finds: its checks, one after the other. -/
theorem amendAccess_judged {s : State} {f : AmendFields} {h : Handle} {o : Order}
    (hf : s.store.findLive f.handle = .order h o) :
    s.amendAccess f = judged (s.amendChecks h o f) (fun x => s.linkDone x false []) (s.amendApply h o f) := by
  unfold State.amendAccess judged
  rw [hf]
  dsimp only
  cases firstRefusal (s.amendChecks h o f) <;> rfl

/-- Settles O28. -/
theorem amendAccess : Obligations.AmendAccess := by
  refine ⟨fun s f k hk => ?_, fun cs c n => dropUser_get cs n c⟩
  have hend (t : State) (ht : t.link = s.link) (x : Status) (c : Bool) (p : List Byte) : t.linkDone x c p = k t x c p :=
    ends_linkDone hk t ht x c p
  rw [exec_amendAccess (ends_inFlight hk)]
  refine ⟨fun hv => ?unknown, fun hv => ?closed, fun h hraw hv => ⟨fun hr => ?damaged, fun o o' hr ho => ?record⟩⟩
  case unknown =>
    rw [State.amendAccess, findLive_unknown (st := s.completed.store) hv]
    dsimp only
    rw [hend s.completed rfl]
  case closed =>
    rw [State.amendAccess, findLive_closed (st := s.completed.store) hv]
    dsimp only
    rw [hend s.completed rfl]
  case damaged =>
    rw [State.amendAccess, findLive_damaged (st := s.completed.store) hraw hv hr]
    dsimp only
    rw [hend (s.completed.damaged h) (damaged_link s.completed h)]
  case record =>
    subst ho
    have hbytes : h.bytes = [byte h.slot, byte h.gen] := rfl
    have hrefuse : (fun x => s.completed.linkDone x false []) = fun x => k s.completed x false [] :=
      funext fun x => hend s.completed rfl x false []
    rw [amendAccess_judged (findLive_order (st := s.completed.store) hraw hv hr), hrefuse, State.amendChecks,
      State.amendFieldChecks, amendApply_eq, hend s.completed rfl, hend (s.completed.amended h o f) rfl, hbytes]
    simp only [List.cons_append, List.nil_append, judged_cons, judged_nil]
    congr 2
    exact if_congr Iff.rfl rfl (if_congr Iff.rfl rfl (if_congr (option_any_iff _ _) rfl
      (if_congr (option_any_iff _ _) rfl (if_congr (duplicate_some_iff _ _ _ _) rfl
        (if_congr (amendFull_iff _ _ _) rfl rfl)))))

/-! ### WITHDRAW_ACCESS and FREE_ACCESS (R14, R16, R24, R26) -/

theorem exec_withdrawAccess {s : State} {r : RawHandle} (h : s.arbiter.inFlight = some (.link (.withdraw r))) :
    exec .withdrawAccess s = .next (s.completed.withdrawAccess r).finishLink := by
  show Host.Outcome.next _ = _
  rw [h]

theorem exec_freeAccess {s : State} {r : RawHandle} (h : s.arbiter.inFlight = some (.link (.free r))) :
    exec .freeAccess s = .next (s.completed.freeAccess r).finishLink := by
  show Host.Outcome.next _ = _
  rw [h]

theorem freeAccess_unknown {s : State} {r : RawHandle} (h : s.store.rawVerdict r = .unknown) :
    s.freeAccess r = s.linkDone .unknownHandle false [] := by
  unfold State.freeAccess
  rcases rawVerdict_unknown h with hr | ⟨x, hr, hv⟩
  · rw [hr]
  · rw [hr]
    dsimp only
    rw [hv]

theorem freeAccess_live {s : State} {r : RawHandle} (h : s.store.rawVerdict r = .live) :
    s.freeAccess r = s.linkDone .notClosed false [] := by
  obtain ⟨x, hr, hv⟩ := rawVerdict_known (by simp) h
  unfold State.freeAccess
  rw [hr]
  dsimp only
  rw [hv]

theorem freeAccess_closed {s : State} {r : RawHandle} {h : Handle} (hr : h.raw = r) (hv : s.store.verdict h = .closed) :
    s.freeAccess r = State.linkDone { s with store := s.store.free h.slot } .done false h.bytes := by
  subst hr
  unfold State.freeAccess
  rw [handle_of_raw rfl]
  dsimp only
  rw [hv]
  rfl

/-- The verdict of a handle that is not unknown tells its slot's generation. -/
theorem generation_of_verdict {st : Store} {h : Handle} (hv : st.verdict h ≠ .unknown) :
    (st.dir h.slot).generation = h.gen := by
  unfold Store.verdict at hv
  by_contra hne
  exact hv (if_neg hne)

theorem free_dir (st : Store) (n : Fin 64) :
    (st.free n).dir n = DirEntry.freeAt (((st.dir n).generation + 1) % 256) := by
  unfold Store.free Store.dir
  dsimp only
  rw [vector_set_eq]

/-- Settles O29. -/
theorem withdrawAndFree : Obligations.WithdrawAndFree := by
  refine ⟨fun s r k hk => ?withdraw, fun s r k hk => ?free⟩
  case withdraw =>
    have hend (t : State) (ht : t.link = s.link) (x : Status) (c : Bool) (p : List Byte) : t.linkDone x c p = k t x c p :=
      ends_linkDone hk t ht x c p
    rw [exec_withdrawAccess (ends_inFlight hk)]
    refine ⟨fun hv => ?_, fun hv => ?_, fun h hraw hv => ⟨fun hr => ?_, fun o hr => ?_⟩⟩
    · rw [State.withdrawAccess, findLive_unknown (st := s.completed.store) hv]
      dsimp only
      rw [hend s.completed rfl]
    · rw [State.withdrawAccess, findLive_closed (st := s.completed.store) hv]
      dsimp only
      rw [hend s.completed rfl]
    · rw [State.withdrawAccess, findLive_damaged (st := s.completed.store) hraw hv hr]
      dsimp only
      rw [hend (s.completed.damaged h) (damaged_link s.completed h)]
    · rw [State.withdrawAccess, findLive_order (st := s.completed.store) hraw hv hr]
      dsimp only
      rw [hend (s.completed.closeOrder h o .withdrawn) (by simp), ← hraw]
      rfl
  case free =>
    have hend (t : State) (ht : t.link = s.link) (x : Status) (c : Bool) (p : List Byte) : t.linkDone x c p = k t x c p :=
      ends_linkDone hk t ht x c p
    rw [exec_freeAccess (ends_inFlight hk)]
    refine ⟨fun hv => ?_, fun hv => ?_, fun h hraw hv => ?_⟩
    · rw [freeAccess_unknown (s := s.completed) hv, hend s.completed rfl]
    · rw [freeAccess_live (s := s.completed) hv, hend s.completed rfl]
    · have hdir := free_dir s.store h.slot
      refine ⟨s.store.free h.slot, ?_, ?_, by rw [hdir]; rfl, by rw [hdir]; rfl, by rw [hdir]; rfl, by rw [hdir]; rfl,
        by rw [hdir]; rfl, ?_, fun n hn => vector_set_ne _ _ _ _ hn, rfl, rfl⟩
      · rw [freeAccess_closed (s := s.completed) hraw hv]
        exact congrArg (fun t => Host.Outcome.next (State.finishLink t))
          (hend { s.completed with store := s.store.free h.slot } rfl _ _ _)
      · unfold Store.free
        dsimp only
        rw [vector_set_eq]
      · rw [hdir, ← generation_of_verdict (h := h) (by rw [hv]; nofun)]
        rfl

/-! ### READ_ACCESS and INDEX_READ (R33, R41, R181) -/

theorem exec_readAccess {s : State} {h : Handle} {x : Status} (hf : s.arbiter.inFlight = some (.link (.read h x))) :
    exec .readAccess s = .next (s.completed.readAccess h x).finishLink := by
  show Host.Outcome.next _ = _
  rw [hf]

theorem exec_indexRead {s : State} {v : Nat} (hf : s.arbiter.inFlight = some (.link (.index v))) :
    exec .indexRead s = .next (s.completed.indexRead v).finishLink := by
  show Host.Outcome.next _ = _
  rw [hf]

theorem presence_eq (o : Order) : o.presence =
    (if o.earliest = none then 0 else 1) + (if o.hold = none then 0 else 2) + (if o.boundPost = none then 0 else 4) +
      (if o.stall = none then 0 else 8) + (if o.reached = none then 0 else 16) + (if o.estimate = none then 0 else 32) +
      (if o.outcome = none then 0 else 64) := by
  have hbits (a b c d e f g : Bool) :
      bitAt a 0 ||| bitAt b 1 ||| bitAt c 2 ||| bitAt d 3 ||| bitAt e 4 ||| bitAt f 5 ||| bitAt g 6 =
        (if a then 1 else 0) + (if b then 2 else 0) + (if c then 4 else 0) + (if d then 8 else 0) +
          (if e then 16 else 0) + (if f then 32 else 0) + (if g then 64 else 0) := by
    revert a b c d e f g
    decide
  have hsome {α : Type} (p : Option α) (v : Byte) : (if p.isSome = true then v else 0) = if p = none then 0 else v := by
    cases p <;> rfl
  unfold Order.presence
  rw [hbits]
  simp only [hsome]

theorem indicators_eq (o : Order) : bitAt o.short 0 ||| bitAt o.behind 1 ||| bitAt o.unreachable 2 =
    (if o.short then 1 else 0) + (if o.behind then 2 else 0) +
      (match o.estimate with | none => 0 | some e => if e.unreachable then 4 else 0) := by
  have hbits := bits_eq_sum o.short o.behind o.unreachable false false false
  have hlast : (if o.unreachable = true then 4 else 0 : Byte) =
      match o.estimate with | none => 0 | some e => if e.unreachable then 4 else 0 := by
    unfold Order.unreachable
    cases o.estimate <;> rfl
  rw [show bitAt false 3 = 0#8 from rfl, show bitAt false 4 = 0#8 from rfl, show bitAt false 5 = 0#8 from rfl,
    BitVec.or_zero, BitVec.or_zero, BitVec.or_zero] at hbits
  rw [hbits, hlast]
  simp

theorem outcomeBytes_eq (x : Option (OrderOutcome × Nat)) :
    [x.elim 0 (fun y => y.1.code)] ++ be16 (x.elim 0 Prod.snd) =
      match x with
      | none => [0, 0, 0]
      | some (y, m) =>
        (match y with | .met => 1 | .late => 2 | .lapsed => 3 | .withdrawn => 4 | .broken => 5 : Byte) :: be16 m := by
  rcases x with _ | ⟨y, m⟩
  · rfl
  · cases y <;> rfl

theorem stallByte_eq (x : Option StallCause) : x.elim 0 StallCause.code =
    (match x with | none => 0 | some .heaterFault => 1 | some .staleReading => 2 | some .postSilent => 3 : Byte) := by
  rcases x with _ | x
  · rfl
  · cases x <;> rfl

theorem boundByte_eq (x : Option (Fin 24)) :
    byte (x.elim 0 (fun p => (p : Nat))) = match x with | none => 0 | some p => byte p := by
  cases x <;> rfl

/-- The FIND reply of a list of at most four handles. -/
theorem findImage_short (v : Nat) {handles : List Handle} (h : handles.length ≤ 4) : findImage v handles =
    be16 v ++ [byte handles.length] ++ handles.flatMap (fun h => [byte h.slot, byte h.gen]) ++
      List.replicate (8 - 2 * handles.length) 0xFF := by
  unfold findImage
  rw [List.take_of_length_le h]
  rfl

theorem flatMap_bytes_length (l : List Handle) : (l.flatMap Handle.bytes).length = 2 * l.length := by
  induction l with
  | nil => rfl
  | cons x xs ih =>
    rw [List.flatMap_cons, List.length_append, ih, List.length_cons]
    show 2 + _ = _
    omega

theorem findImage_length (v : Nat) (handles : List Handle) : (findImage v handles).length = 11 := by
  unfold findImage
  have := List.length_take_le 4 handles
  simp only [List.length_append, List.length_replicate, flatMap_bytes_length, be16_length, List.length_singleton]
  omega

/-- Settles O30. -/
theorem readAndIndexAccess : Obligations.ReadAndIndexAccess := by
  intro s r tag
  refine ⟨fun h x hs hv => ⟨fun o image hr himage => ?record, fun hr image himage => ?damaged⟩,
    fun v handles hs hh hlen => ?index, fun v hs hmany => ?long⟩
  case record =>
    have hbytes : image = o.image := by
      rw [himage]
      unfold Order.image
      rw [presence_eq, indicators_eq, stallByte_eq, boundByte_eq, List.append_assoc _ [_] (be16 (o.outcome.elim 0 _)),
        outcomeBytes_eq]
      simp only [List.append_assoc, List.cons_append, List.nil_append]
      congr
    rw [hbytes, exec_readAccess hs.1]
    unfold State.readAccess
    rw [if_neg (by exact hv), show s.completed.store = s.store from rfl, hr]
    dsimp only
    rw [serves_linkDone hs s.completed rfl, finishLink_replied]
    exact ⟨rfl, order_image_length o⟩
  case damaged =>
    rw [himage, ← damagedImage_eq]
    refine ⟨by rw [damagedImage_eq]; rfl, fun hd => ?_, fun hd => ?_⟩
    · rw [exec_readAccess hs.1]
      unfold State.readAccess
      rw [if_neg (by exact hv), show s.completed.store = s.store from rfl, hr]
      dsimp only
      rw [if_pos hd, serves_linkDone hs s.completed rfl, finishLink_replied]
    · rw [exec_readAccess hs.1]
      unfold State.readAccess
      rw [if_neg (by exact hv), show s.completed.store = s.store from rfl, hr]
      dsimp only
      rw [if_neg (by simp [hd]), serves_linkDone hs (s.completed.damaged h) (damaged_link s.completed h),
        finishLink_replied]
  case index =>
    rw [exec_indexRead hs.1]
    unfold State.indexRead
    rw [serves_linkDone hs s.completed rfl, finishLink_replied, ← findImage_short v hlen, hh]
    rfl
  case long =>
    refine ⟨findImage v ((s.store.vehicleEntries v).map IndexEntry.handle), ?_, findImage_length v _⟩
    rw [exec_indexRead hs.1]
    unfold State.indexRead
    rw [serves_linkDone hs s.completed rfl, finishLink_replied]
    rfl

end Sys2Proof.Machine

/-! The order store's own operations, and the notices of a close, a return to PENDING and a damage (02 sections 3.2 to 3.4
and 3.7; 04 sections 5.4 and 5.6). -/

namespace Sys2Proof.Machine

/-! ### Writing a record (R10, R28, R39) -/

theorem writeOrder_slot (st : Store) (n : Fin 64) (o : Order) : (st.writeOrder n o).slots[n] =
    { dir := { st.dir n with state := some o.state, vehicle := some o.vehicle, boundPost := o.boundPost }
      record := some { order := o, codeError := 0 } } := vector_set_eq _ _ _

theorem writeOrder_dir (st : Store) (n : Fin 64) (o : Order) : (st.writeOrder n o).dir n =
    { st.dir n with state := some o.state, vehicle := some o.vehicle, boundPost := o.boundPost } :=
  congrArg Slot.dir (writeOrder_slot st n o)

theorem writeOrder_slot_ne (st : Store) {n m : Fin 64} (o : Order) (h : m ≠ n) :
    (st.writeOrder n o).slots[m] = st.slots[m] := vector_set_ne _ _ _ _ h

theorem setOccupancy_slot (st : Store) (n : Fin 64) (x : Occupancy) :
    (st.setOccupancy n x).slots[n] = { st.slots[n] with dir := { st.dir n with occupancy := x } } := vector_set_eq _ _ _

theorem setOccupancy_slot_ne (st : Store) {n m : Fin 64} (x : Occupancy) (h : m ≠ n) :
    (st.setOccupancy n x).slots[m] = st.slots[m] := vector_set_ne _ _ _ _ h

/-- A record written into a slot whose occupancy then changes. -/
theorem writeOrder_setOccupancy_slot (st : Store) (n : Fin 64) (o : Order) (x : Occupancy) :
    ((st.writeOrder n o).setOccupancy n x).slots[n] =
      { dir := { st.dir n with
          occupancy := x, state := some o.state, vehicle := some o.vehicle, boundPost := o.boundPost }
        record := some { order := o, codeError := 0 } } := by
  rw [setOccupancy_slot, writeOrder_dir, writeOrder_slot]

theorem writeOrder_setOccupancy_slot_ne (st : Store) {n m : Fin 64} (o : Order) (x : Occupancy) (h : m ≠ n) :
    ((st.writeOrder n o).setOccupancy n x).slots[m] = st.slots[m] := by
  rw [setOccupancy_slot_ne _ _ h, writeOrder_slot_ne _ _ h]

theorem readOrder_writeOrder (st : Store) (n : Fin 64) (o : Order) (h : (st.dir n).damaged = false) :
    (st.writeOrder n o).readOrder n = some o := by
  unfold Store.readOrder
  rw [writeOrder_dir, writeOrder_slot]
  dsimp only
  rw [if_neg (by simp [h]), if_pos rfl]

/-- Settles O36. -/
theorem recordWrites : Obligations.RecordWrites := by
  intro st t n o now
  refine ⟨?_, ?_⟩
  · rintro rfl
    exact ⟨congrArg Slot.record (writeOrder_slot st n o), writeOrder_dir st n o, readOrder_writeOrder st n o,
      fun m hm => writeOrder_slot_ne st o hm, rfl, rfl⟩
  · rintro rfl
    have hslot := writeOrder_setOccupancy_slot st n o .live
    exact ⟨congrArg Slot.record hslot, congrArg Slot.dir hslot,
      fun m hm => writeOrder_setOccupancy_slot_ne st o .live hm, rfl, rfl⟩

/-! ### The vehicle index (R31, R32) -/

theorem indexInsert_vehicleEntries {st : Store} (hs : st.indexSound) (now v : Nat) (e : IndexEntry) (w : Nat) :
    (st.indexInsert now v e).vehicleEntries w =
      if w = v then insertEntry now e (st.vehicleEntries v) else st.vehicleEntries w :=
  vehicleEntries_setVehicleList hs v _ w

/-- An entry put between those with no more ahead-minutes and those with more keeps a list ascending. -/
theorem ascending_insert {now : Nat} {before after : List IndexEntry} {e : IndexEntry}
    (hb : ∀ x ∈ before, aheadMinutes now x.departure ≤ aheadMinutes now e.departure)
    (ha : ∀ x ∈ after.head?, aheadMinutes now e.departure < aheadMinutes now x.departure)
    (h : (before ++ after).Pairwise (fun x y => aheadMinutes now x.departure ≤ aheadMinutes now y.departure)) :
    (before ++ e :: after).Pairwise (fun x y => aheadMinutes now x.departure ≤ aheadMinutes now y.departure) := by
  obtain ⟨hbefore, hafter, hcross⟩ := List.pairwise_append.mp h
  have hle : ∀ y ∈ after, aheadMinutes now e.departure ≤ aheadMinutes now y.departure := by
    cases after with
    | nil => nofun
    | cons a t =>
      have hhead := (ha a rfl).le
      obtain ⟨hfirst, _⟩ := List.pairwise_cons.mp hafter
      intro y hy
      rcases List.mem_cons.mp hy with rfl | hy
      · exact hhead
      · exact hhead.trans (hfirst y hy)
  refine List.pairwise_append.mpr ⟨hbefore, List.pairwise_cons.mpr ⟨hle, hafter⟩, fun x hx y hy => ?_⟩
  rcases List.mem_cons.mp hy with rfl | hy
  · exact hb x hx
  · exact hcross x hx y hy

/-- Settles O37: the place `insertEntry_split` gives. -/
theorem vehicleIndexOrder : Obligations.VehicleIndexOrder := by
  intro st now v h e hs
  obtain ⟨before, after, hsplit, hinsert, hb, ha⟩ := insertEntry_split now e (st.vehicleEntries v)
  have hentries : (st.indexInsert now v e).vehicleEntries v = before ++ e :: after := by
    rw [indexInsert_vehicleEntries hs, if_pos rfl, hinsert]
  refine ⟨indexSound_setVehicleList hs v _, indexSound_setVehicleList hs v _, fun w hw => ⟨?_, ?_⟩, ?_, before, after,
    hsplit, hentries, hb, ha, fun hasc => ?_⟩
  · rw [indexInsert_vehicleEntries hs, if_neg hw]
  · rw [indexRemove_vehicleEntries hs, if_neg hw]
  · rw [indexRemove_vehicleEntries hs, if_pos rfl]
  · rw [hentries]
    exact ascending_insert hb ha (hsplit ▸ hasc)

/-! ### Closes, returns and damage (R17, R40, R41, R92) -/

theorem close_slot (st : Store) (h : Handle) (o : Order) (x : OrderOutcome) (m : Nat) : (st.close h o x m).slots[h.slot] =
    { dir := { st.dir h.slot with
        occupancy := .closed, state := some .closed, vehicle := some o.vehicle, boundPost := none }
      record := some { order := o.close x m, codeError := 0 } } := by
  unfold Store.close Store.indexRemove
  dsimp only
  rw [clearTable_slots]
  exact writeOrder_setOccupancy_slot st h.slot (o.close x m) .closed

theorem close_slot_ne (st : Store) (h : Handle) (o : Order) (x : OrderOutcome) (m : Nat) {n : Fin 64} (hn : n ≠ h.slot) :
    (st.close h o x m).slots[n] = st.slots[n] := by
  unfold Store.close Store.indexRemove
  dsimp only
  rw [clearTable_slots]
  exact writeOrder_setOccupancy_slot_ne st (o.close x m) .closed hn

theorem close_table (st : Store) (h : Handle) (o : Order) (x : OrderOutcome) (m : Nat) (p : Fin 24) :
    (st.close h o x m).table[p] = if o.boundPost = some p then none else st.table[p] :=
  clearTable_get ((st.writeOrder h.slot (o.close x m)).setOccupancy h.slot .closed) o.boundPost p

theorem close_vehicleEntries {st : Store} (hs : st.indexSound) (h : Handle) (o : Order) (x : OrderOutcome) (m w : Nat) :
    (st.close h o x m).vehicleEntries w =
      if w = o.vehicle then (st.vehicleEntries w).filter (fun e => e.handle ≠ h) else st.vehicleEntries w := by
  have hindex : (((st.writeOrder h.slot (o.close x m)).setOccupancy h.slot .closed).clearTable o.boundPost).index =
      st.index := clearTable_index _ _
  unfold Store.close
  rw [indexRemove_vehicleEntries (indexSound_congr hindex hs), vehicleEntries_congr hindex]

theorem damage_slot (st : Store) (h : Handle) : (st.damage h).slots[h.slot] =
    { dir := { st.dir h.slot with occupancy := .closed, damaged := true, state := some .closed, boundPost := none }
      record := none } := by
  unfold Store.damage Store.indexRemove
  dsimp only
  rw [clearTable_slots]
  exact vector_set_eq _ _ _

theorem damage_slot_ne (st : Store) (h : Handle) {n : Fin 64} (hn : n ≠ h.slot) :
    (st.damage h).slots[n] = st.slots[n] := by
  unfold Store.damage Store.indexRemove
  dsimp only
  rw [clearTable_slots]
  exact vector_set_ne _ _ _ _ hn

/-- The slot marked by a damage, before the table and the index follow. -/
def Store.damageMarked (st : Store) (n : Fin 64) : Store :=
  { st with
    slots := st.slots.set n
      { dir := { st.dir n with occupancy := .closed, damaged := true, state := some .closed, boundPost := none }
        record := none } }

theorem damage_eq (st : Store) (h : Handle) : st.damage h =
    ((st.damageMarked h.slot).clearTable (st.dir h.slot).boundPost).indexRemove ((st.dir h.slot).vehicle.getD 0) h := rfl

theorem damage_table (st : Store) (h : Handle) (p : Fin 24) :
    (st.damage h).table[p] = if (st.dir h.slot).boundPost = some p then none else st.table[p] :=
  clearTable_get (st.damageMarked h.slot) (st.dir h.slot).boundPost p

theorem damage_vehicleEntries {st : Store} (hs : st.indexSound) (h : Handle) {v : Nat}
    (hv : (st.dir h.slot).vehicle = some v) (w : Nat) : (st.damage h).vehicleEntries w =
      if w = v then (st.vehicleEntries w).filter (fun e => e.handle ≠ h) else st.vehicleEntries w := by
  have hindex : ((st.damageMarked h.slot).clearTable (st.dir h.slot).boundPost).index = st.index := clearTable_index _ _
  rw [damage_eq, indexRemove_vehicleEntries (indexSound_congr hindex hs), vehicleEntries_congr hindex, hv]
  rfl

theorem markDamaged_slot (st : Store) (n : Fin 64) :
    (st.markDamaged n).slots[n] = { dir := { st.dir n with damaged := true }, record := none } := vector_set_eq _ _ _

theorem markDamaged_slot_ne (st : Store) {n m : Fin 64} (h : m ≠ n) : (st.markDamaged n).slots[m] = st.slots[m] :=
  vector_set_ne _ _ _ _ h

/-- A damage of a LIVE slot closes its order. -/
theorem damaged_live {s : State} {h : Handle} (hl : (s.store.dir h.slot).occupancy = .live) : s.damaged h =
    State.noticeUnbound { s with store := s.store.damage h, classes := dropUser s.classes h.slot } h
      ((s.store.dir h.slot).vehicle.getD 0) (s.store.dir h.slot).boundPost false := if_pos hl

/-- A damage of a slot that is not LIVE marks it. -/
theorem damaged_notLive {s : State} {h : Handle} (hl : (s.store.dir h.slot).occupancy ≠ .live) :
    s.damaged h = { s with store := s.store.markDamaged h.slot } := if_neg hl

/-- The engine's part of a notice: nothing for an order that was not bound. -/
theorem noticeUnbound_bus (s : State) (h : Handle) (v : Nat) (post : Option (Fin 24)) (pending : Bool) :
    (s.noticeUnbound h v post pending).bus =
      match post with | none => s.bus | some p => s.bus.unbound p v pending := by
  cases post <;> rfl

theorem toPending_slot (st : Store) (h : Handle) (o : Order) :
    ((st.writeOrder h.slot o.toPending).clearTable o.boundPost).slots[h.slot] =
      { dir := { st.dir h.slot with state := some .pending, vehicle := some o.vehicle, boundPost := none }
        record := some { order := o.toPending, codeError := 0 } } := by
  rw [clearTable_slots]
  exact writeOrder_slot st h.slot o.toPending

theorem toPending_slot_ne (st : Store) (h : Handle) (o : Order) {n : Fin 64} (hn : n ≠ h.slot) :
    ((st.writeOrder h.slot o.toPending).clearTable o.boundPost).slots[n] = st.slots[n] := by
  rw [clearTable_slots]
  exact writeOrder_slot_ne st o.toPending hn

/-- Settles O38. -/
theorem closeReturnDamage : Obligations.CloseReturnDamage := by
  refine ⟨?close, ?returned, ?damage⟩
  case close =>
    rintro s t h o x hs rfl
    exact ⟨close_slot s.store h o x s.clock.minute, fun n hn => close_slot_ne s.store h o x s.clock.minute hn,
      close_table s.store h o x s.clock.minute, close_vehicleEntries hs h o x s.clock.minute,
      fun c => dropUser_get s.classes h.slot c, planner_remove s.planner h, noticeUnbound_bus _ h o.vehicle o.boundPost false,
      rfl, rfl, rfl, rfl, rfl, rfl, rfl, rfl⟩
  case returned =>
    rintro s t h o n hn rfl
    refine ⟨toPending_slot s.store h o, fun m hm => toPending_slot_ne s.store h o hm, fun p => ?_,
      clearTable_index _ _, rfl, ?_, rfl, rfl, rfl, rfl, rfl, rfl, rfl, rfl, rfl⟩
    · refine (clearTable_get (s.store.writeOrder h.slot o.toPending) o.boundPost p).trans ?_
      rw [hn]
      exact if_congr (by simp [eq_comm]) rfl rfl
    · exact (noticeUnbound_bus _ h o.vehicle o.boundPost true).trans (by rw [hn])
  case damage =>
    rintro s t h d rfl rfl
    refine ⟨fun n hn => ?_, fun hl => ?_, fun v hl hv hs => ?_, by simp, by simp, by simp, by simp, by simp, by simp,
      by simp, by simp⟩
    · by_cases hl : (s.store.dir h.slot).occupancy = .live
      · rw [damaged_live hl]
        exact damage_slot_ne s.store h hn
      · rw [damaged_notLive hl]
        exact markDamaged_slot_ne s.store hn
    · rw [damaged_notLive hl]
      exact ⟨markDamaged_slot s.store h.slot, rfl, rfl, rfl, rfl, rfl⟩
    · rw [damaged_live hl]
      exact ⟨damage_slot s.store h, damage_table s.store h, damage_vehicleEntries hs h hv,
        fun c => dropUser_get s.classes h.slot c, planner_remove s.planner h,
        (noticeUnbound_bus _ h _ _ false).trans (by rw [hv]; rfl)⟩

/-! ### The engine's part of an unbinding, and the reduction claim (R35, R69, R84) -/

theorem unbound_posts (b : Bus) (n : Fin 24) (v : Nat) (pending : Bool) :
    (b.unbound n v pending).posts = b.posts.set n b.posts[n].unbound := rfl

/-- The claim after a recorded grant: nothing at an OUT post or one whose sent grant is unknown moves it but the
service. -/
theorem setRecorded_claim (p : Post) (w : Nat) : (p.setRecorded w).claim =
    (p.inService && (p.sent.any (fun g => w < g) || (p.claim && !(p.recorded < w && p.sent.any (fun g => g ≤ w))))) := rfl

theorem setRecorded_claim_sent {p : Post} {g : Nat} (w : Nat) (hi : p.inService = true) (hs : p.sent = some g) :
    (p.setRecorded w).claim = (decide (w < g) || (p.claim && !(decide (p.recorded < w) && decide (g ≤ w)))) := by
  rw [setRecorded_claim, hi, hs]
  rfl

/-- Settles O39. -/
theorem enginePostNotices : Obligations.EnginePostNotices := by
  refine ⟨?unbound, ?claim⟩
  case unbound =>
    rintro b c n v pending rfl
    obtain ⟨l, heq, hsorted, hmem⟩ := trigger_spec (b.modify n Post.unbound) (fun q => q = n ||
      ((b.modify n Post.unbound).posts[q].current.vehicle = v &&
        (pending || (b.modify n Post.unbound).posts[q].condition = .conflict)))
    refine ⟨vector_set_eq _ _ _, fun m hm => vector_set_ne _ _ _ _ hm, rfl, rfl, l, congrArg Bus.queue heq, hsorted,
      fun q => (hmem q).trans ?_⟩
    rw [unbound_posts, ← modify_posts]
    simp only [Bool.or_eq_true, Bool.and_eq_true, decide_eq_true_eq, show (b.modify n Post.unbound).queue = b.queue from rfl]
    tauto
  case claim =>
    rintro p q w rfl
    refine ⟨rfl, fun hi => ?_, fun hi hs => ?_, fun g hi hs => ?_⟩
    · rw [setRecorded_claim, hi]
      rfl
    · rw [setRecorded_claim, hi, hs]
      simp
    · rw [setRecorded_claim_sent w hi hs]
      refine ⟨fun hlt => by simp [hlt], fun hle hup => by simp [hle, hup], fun hle hdown => ?_⟩
      simp [not_lt.mpr hle, not_lt.mpr hdown]

end Sys2Proof.Machine

/-! The store accesses of the post bus engine (01 section 2.7; 05 sections 6.3 to 6.6). -/

namespace Sys2Proof.Machine

/-! ### BIND_ACCESS (R86 to R89) -/

theorem exec_bindAccess {s : State} {n : Fin 24} {note : BindNote} (h : s.arbiter.inFlight = some (.bind n note)) :
    exec .bindAccess s = .next (s.completed.bindAccess n note).finish := by
  show Host.Outcome.next _ = _
  rw [h]

theorem boundElsewhere_iff (st : Store) (v : Nat) : st.boundElsewhere v = true ↔
    ∃ e ∈ st.vehicleEntries v, (st.dir e.handle.slot).boundPost ≠ none := by
  simp [Store.boundElsewhere, Option.isSome_iff_ne_none]

theorem not_boundElsewhere {st : Store} {v : Nat}
    (h : ∀ e ∈ st.vehicleEntries v, (st.dir e.handle.slot).boundPost = none) : ¬ st.boundElsewhere v = true := by
  rw [boundElsewhere_iff]
  rintro ⟨e, he, hb⟩
  exact hb (h e he)

theorem candidate_iff (st : Store) (now horizon : Nat) (e : IndexEntry) : st.candidate now horizon e = true ↔
    (st.dir e.handle.slot).state = some .pending ∧ 0 ≤ aheadMinutes now e.departure ∧
      aheadMinutes now e.departure ≤ horizon := by
  simp [Store.candidate, and_assoc]

/-- No candidate inside the horizon. -/
theorem bindResult_noCandidate {st : Store} {now horizon v : Nat}
    (hfree : ∀ e ∈ st.vehicleEntries v, (st.dir e.handle.slot).boundPost = none)
    (h : ∀ e ∈ st.vehicleEntries v, (st.dir e.handle.slot).state = some .pending →
      aheadMinutes now e.departure < 0 ∨ horizon < aheadMinutes now e.departure) :
    st.bindResult now horizon (some v) = .noCandidate := by
  have hnone : (st.vehicleEntries v).filter (st.candidate now horizon) = [] := by
    rw [List.filter_eq_nil_iff]
    intro e he hc
    obtain ⟨hp, h0, hh⟩ := (candidate_iff st now horizon e).mp hc
    have := h e he hp
    omega
  unfold Store.bindResult
  dsimp only
  rw [if_neg (not_boundElsewhere hfree), hnone]
  rfl

/-- The candidate with the fewest ahead-minutes, and its record if it verifies. -/
theorem bindResult_candidate {st : Store} {now horizon v : Nat} {e : IndexEntry}
    (hfree : ∀ x ∈ st.vehicleEntries v, (st.dir x.handle.slot).boundPost = none) (he : e ∈ st.vehicleEntries v)
    (hp : (st.dir e.handle.slot).state = some .pending) (h0 : 0 ≤ aheadMinutes now e.departure)
    (hh : aheadMinutes now e.departure ≤ horizon)
    (hfirst : ∀ x ∈ st.vehicleEntries v, x ≠ e → (st.dir x.handle.slot).state = some .pending →
      0 ≤ aheadMinutes now x.departure → aheadMinutes now e.departure < aheadMinutes now x.departure) :
    st.bindResult now horizon (some v) =
      (st.readOrder e.handle.slot).elim (.damaged e.handle) (.bound e.handle) := by
  have hsoonest : soonest now ((st.vehicleEntries v).filter (st.candidate now horizon)) = some e := by
    refine soonest_eq now e _ (List.mem_filter.mpr ⟨he, (candidate_iff st now horizon e).mpr ⟨hp, h0, hh⟩⟩)
      fun x hx hne => ?_
    obtain ⟨hmem, hc⟩ := List.mem_filter.mp hx
    obtain ⟨hxp, hx0, _⟩ := (candidate_iff st now horizon x).mp hc
    exact hfirst x hmem hne hxp hx0
  unfold Store.bindResult
  dsimp only
  rw [if_neg (not_boundElsewhere hfree), hsoonest]
  dsimp only
  cases st.readOrder e.handle.slot <;> rfl

/-- Settles O31. -/
theorem bindAccess : Obligations.BindAccess := by
  intro s n note v hf
  rw [exec_bindAccess hf]
  unfold State.bindAccess
  rw [show s.completed.store = s.store from rfl, show s.completed.clock = s.clock from rfl,
    show s.completed.site = s.site from rfl]
  refine ⟨fun hv => ?stale, fun hv hb => ?conflict, fun hv hfree hnone => ?noCandidate,
    fun hv hfree e he hp h0 hh hfirst => ⟨fun hr => ?damaged, fun o hr => ?bound⟩⟩
  case stale =>
    rw [hv]
    rfl
  case conflict =>
    have hresult : s.store.bindResult s.clock.minute s.site.horizon (some v) = .conflict :=
      if_pos ((boundElsewhere_iff _ _).mpr hb)
    rw [hv, hresult]
    rfl
  case noCandidate =>
    rw [hv, bindResult_noCandidate hfree hnone]
    rfl
  case damaged =>
    rw [hv, bindResult_candidate hfree he hp h0 hh hfirst, hr]
    rfl
  case bound =>
    rw [hv, bindResult_candidate hfree he hp h0 hh hfirst, hr]
    rfl

/-! ### The binding notice (R90) -/

/-- Settles O32: the table of R90, row by row. -/
theorem bindingNotice : Obligations.BindingNotice := by
  intro b n h v note
  unfold Bus.bindingNotice
  refine ⟨fun hout => if_pos hout, fun hout hplug => ?unplug,
    fun hout hplug hocc => ⟨fun hsilent => ?silent, fun hsilent h0 hv => ?changed, fun hsilent hv => ?bound⟩⟩
  case unplug =>
    rw [if_neg (by simp [hout]), if_pos hplug]
    rfl
  case silent =>
    rw [if_neg (by simp [hout]), if_neg (by simp [hplug]), if_neg (not_not.mpr hocc), if_pos hsilent]
    rfl
  case changed =>
    rw [if_neg (by simp [hout]), if_neg (by simp [hplug]), if_neg (not_not.mpr hocc), if_neg (by rw [hsilent]; nofun),
      if_pos ⟨h0, hv⟩]
    rfl
  case bound =>
    rw [if_neg (by simp [hout]), if_neg (by simp [hplug]), if_neg (not_not.mpr hocc), if_neg (by rw [hsilent]; nofun),
      if_neg fun q => q.2 hv]
    rfl

/-! ### UNBIND_ACCESS (R91 to R95) -/

theorem exec_unbindAccess {s : State} {n : Fin 24} {h : Handle} {cause : UnbindCause}
    (hf : s.arbiter.inFlight = some (.posts (.unbind n h cause))) :
    exec .unbindAccess s = .next (s.completed.unbindAccess n h cause).finish := by
  show Host.Outcome.next _ = _
  rw [hf]

theorem returnsToPending_iff (now window : Nat) (cause : UnbindCause) (o : Order) :
    returnsToPending now window cause o = true ↔ cause = .serviceOut ∨ (window : Int) < aheadMinutes now o.departure := by
  simp [returnsToPending]

theorem outcomeRule_written (o : Order) : outcomeRule o =
    if o.reached.isSome then .met else if o.state = .stalled then .broken
    else if o.state = .pending ∨ o.state = .closed then .lapsed else .late := by
  unfold outcomeRule
  cases o.reached with
  | some m => rfl
  | none => cases o.state <;> rfl

/-- Settles O33. -/
theorem unbindAccess : Obligations.UnbindAccess := by
  intro s n h o cause hf hb
  have heffect : s.completed.unbindAccess n h cause =
      if returnsToPending s.clock.minute s.site.departWindow cause o then s.completed.returnToPending h o
      else s.completed.closeOrder h o (outcomeRule o) := onBound_order (t := s.completed) hb rfl _
  rw [exec_unbindAccess hf, heffect]
  refine ⟨fun hreturn => by rw [if_pos ((returnsToPending_iff _ _ _ _).mpr hreturn)], fun hcause hwindow => ?_⟩
  rw [if_neg, outcomeRule_written]
  rw [returnsToPending_iff]
  rintro (hc | hw)
  · exact hcause hc
  · omega

/-! ### Stall, recovery, energy and the zero grant (R5, R19 to R21, R77) -/

theorem exec_stallEntry {s : State} {n : Fin 24} {h : Handle} {cause : StallCause}
    (hf : s.arbiter.inFlight = some (.posts (.stall n h cause))) (hs : s.store.stalledAt n h = false) :
    exec .stallEntry s =
      .next (s.completed.onBound n h (fun o => s.completed.stallEntry h cause o)).finish := by
  show Host.Outcome.next _ = _
  rw [hf]
  exact congrArg Host.Outcome.next (if_neg (by simp [hs]))

theorem exec_stallCauseReplacement {s : State} {n : Fin 24} {h : Handle} {cause : StallCause}
    (hf : s.arbiter.inFlight = some (.posts (.stall n h cause)))
    (hs : s.store.stalledAt n h = true ∨ s.store.findBound n h = .stale) : exec .stallCauseReplacement s =
      .next (s.completed.onBound n h (fun o => s.completed.stallReplace h cause o)).finish := by
  show Host.Outcome.next _ = _
  rw [hf]
  exact congrArg Host.Outcome.next (if_pos (by simpa using hs))

theorem exec_recovery {s : State} {n : Fin 24} {h : Handle} (hf : s.arbiter.inFlight = some (.posts (.recover n h))) :
    exec .recovery s = .next (s.completed.onBound n h (fun o => s.completed.recover h o)).finish := by
  show Host.Outcome.next _ = _
  rw [hf]

theorem exec_addEnergy {s : State} {n : Fin 24} {h : Handle} {kj : Nat}
    (hf : s.arbiter.inFlight = some (.posts (.addEnergy n h kj))) : exec .addEnergy s =
      .next (s.completed.onBound n h (fun o =>
        s.completed.writeOrder h { o with energy := min Config.energyMax (o.energy + kj) })).finish := by
  show Host.Outcome.next _ = _
  rw [hf]

theorem exec_zeroGrantOnShed {s : State} {n : Fin 24} {h : Handle}
    (hf : s.arbiter.inFlight = some (.posts (.zeroGrant n h))) : exec .zeroGrantOnShed s =
      .next (s.completed.onBound n h (fun o => s.completed.writeOrder h { o with grant := 0 })).finish := by
  show Host.Outcome.next _ = _
  rw [hf]

theorem stalledAt_iff (st : Store) (n : Fin 24) (h : Handle) : st.stalledAt n h = true ↔
    (st.table[n] = some h ∧ st.verdict h = .live) ∧ (st.dir h.slot).state = some .stalled := by
  simp [Store.stalledAt]

theorem not_stalledAt {s : State} {n : Fin 24} {h : Handle}
    (hs : s.staleTarget n h ∨ (s.store.dir h.slot).state ≠ some .stalled) : s.store.stalledAt n h = false := by
  rw [← Bool.not_eq_true, stalledAt_iff]
  rintro ⟨htarget, hstate⟩
  rcases hs with hs | hs
  · exact hs htarget
  · exact hs hstate

theorem findBound_stale {s : State} {n : Fin 24} {h : Handle} (hs : s.staleTarget n h) :
    s.store.findBound n h = .stale := if_neg hs

/-- Settles O34. -/
theorem boundOrderAccesses : Obligations.BoundOrderAccesses := by
  refine ⟨fun s n h o hb hdir => ⟨fun cause hf => ⟨fun hstate => ?entry, fun hstate => ?replaced⟩,
      fun hf => ⟨fun hstate => ?recovered, fun hstate => ?kept⟩⟩,
    fun s n h o hb => ⟨fun kj hf => ?energy, fun hf => ?zero⟩⟩
  case entry =>
    have hentry : (s.store.dir h.slot).state ≠ some .stalled := by
      rw [hdir]
      rcases hstate with hs | hs | hs <;> rw [hs] <;> nofun
    rw [exec_stallEntry hf (not_stalledAt (.inr hentry)), onBound_order (t := s.completed) hb rfl, State.stallEntry, if_pos hstate]
    rfl
  case replaced =>
    obtain ⟨htable, hlive, _⟩ := id hb
    have hstalled := (stalledAt_iff s.store n h).mpr ⟨⟨htable, hlive⟩, by rw [hdir, hstate]⟩
    rw [exec_stallCauseReplacement hf (.inl hstalled), onBound_order (t := s.completed) hb rfl, State.stallReplace, if_pos hstate]
    rfl
  case recovered =>
    rw [exec_recovery hf, onBound_order (t := s.completed) hb rfl, State.recover, if_pos hstate]
    rfl
  case kept => rw [exec_recovery hf, onBound_order (t := s.completed) hb rfl, State.recover, if_neg hstate]
  case energy =>
    rw [exec_addEnergy hf, onBound_order (t := s.completed) hb rfl]
    rfl
  case zero =>
    rw [exec_zeroGrantOnShed hf, onBound_order (t := s.completed) hb rfl]
    rfl

/-- Settles O35: `onBound_other` for every access on a bound order. -/
theorem staleAndDamagedTargets : Obligations.StaleAndDamagedTargets := by
  intro s n h c t hc ht
  have hother (f : Order → State) : s.completed.onBound n h f = t := onBound_other ht f
  rcases hc with ⟨cause, rfl, hf⟩ | ⟨cause, rfl, hf, hs⟩ | ⟨cause, rfl, hf, hs⟩ | ⟨rfl, hf⟩ | ⟨kj, rfl, hf⟩ | ⟨rfl, hf⟩
  · rw [exec_unbindAccess hf, State.unbindAccess, hother]
  · have hserves : s.store.stalledAt n h = true ∨ s.store.findBound n h = .stale := by
      by_cases hstale : s.staleTarget n h
      · exact .inr (findBound_stale hstale)
      · exact .inl ((stalledAt_iff s.store n h).mpr ⟨not_not.mp hstale, hs.resolve_left hstale⟩)
    rw [exec_stallCauseReplacement hf hserves, hother]
  · rw [exec_stallEntry hf (not_stalledAt hs), hother]
  · rw [exec_recovery hf, hother]
  · rw [exec_addEnergy hf, hother]
  · rw [exec_zeroGrantOnShed hf, hother]

end Sys2Proof.Machine

/-! PROOF. The arbiter, and how a round starts. -/

namespace Sys2Proof.Machine

/-! ### The arbiter -/

/-- An access in flight holds the store. -/
theorem settle_busy {s : State} (h : s.arbiter.inFlight ≠ none) : s.settle = s :=
  if_pos (Option.isSome_iff_ne_none.mpr h)

/-- LINK presents the access of its oldest waiting change. -/
theorem presented_link_change {s : State} {c : Change} {rest : List Change} (h : s.link.posting = c :: rest) :
    s.presented .link = some (.link c.access) := by
  simp [State.presented, Link.presented, h]

/-- LINK presents the access of the request in progress. -/
theorem presented_link_request {s : State} {r : Request} {tag : Byte} {a : LinkAccess} (hp : s.link.posting = [])
    (hr : s.link.inProgress = some { request := r, tag := tag, stage := .access a }) :
    s.presented .link = some (.link a) := by
  simp [State.presented, Link.presented, hp, hr]

/-- LINK presents nothing while nothing waits and the request in progress is not at an access. -/
theorem presented_link_none {s : State} (hp : s.link.posting = [])
    (hr : ∀ p a, s.link.inProgress = some p → p.stage ≠ .access a) : s.presented .link = none := by
  unfold State.presented Link.presented
  rw [hp]
  rcases hq : s.link.inProgress with _ | ⟨r, tag, stage⟩
  · rfl
  · cases stage with
    | access a => exact absurd rfl (hr _ a hq)
    | _ => rfl

/-- POSTS presents nothing with an empty list. -/
theorem presented_posts_none {s : State} (h : s.bus.queue = []) : s.presented .posts = none := by
  simp [State.presented, presentedPosts, h]

/-- The vehicle a binding attempt is presented with. -/
theorem bindVehicle_eq (b : Bus) (st : Store) (n : Fin 24) :
    bindVehicle b st n =
      if b.posts[n].inService = true ∧ b.posts[n].state = .occupied ∧ b.posts[n].silent = false ∧
          b.posts[n].current.vehicle ≠ 0 ∧ st.table[n] = none then some b.posts[n].current.vehicle
      else none := by
  have htests : (b.posts[n].qualifies = true ∧ st.table[n] = none) ↔
      (b.posts[n].inService = true ∧ b.posts[n].state = .occupied ∧ b.posts[n].silent = false ∧
        b.posts[n].current.vehicle ≠ 0 ∧ st.table[n] = none) := by
    simp [Post.qualifies, and_assoc]
  exact if_congr htests rfl rfl

/-- POSTS presents a binding attempt with the vehicle of its tests. -/
theorem presented_posts_bind {s : State} {n : Fin 24} {rest : List PostAccess} (h : s.bus.queue = .bind n :: rest) :
    s.presented .posts =
      some (.bind n { vehicle := bindVehicle s.bus s.store n, plugOut := false, serviceOut := false }) := by
  simp [State.presented, presentedPosts, h]

/-- POSTS presents any other access of its list as it stands. -/
theorem presented_posts_other {s : State} {a : PostAccess} {rest : List PostAccess} (h : s.bus.queue = a :: rest)
    (ha : ∀ n, a ≠ .bind n) : s.presented .posts = some (.posts a) := by
  unfold State.presented presentedPosts
  rw [h]
  cases a with
  | bind n => exact absurd rfl (ha n)
  | _ => rfl

/-- PLAN presents what the phase of its round holds next. -/
theorem presented_plan {s : State} {r : Round} (h : s.planner.round = some r) :
    s.presented .plan =
      Option.map Access.plan
        (match r.phase with
        | .snapshot ((n, h) :: _) => some (.snapshot n h)
        | .sweep (h :: _) => some (.sweep h)
        | .writeBack (n :: _) => some (.writeBack n)
        | _ => none) := by
  unfold State.presented Planner.presented
  rw [h]
  obtain ⟨phase, now, lead, grace, fallback, rows⟩ := r
  rcases phase with (_ | ⟨⟨n, k⟩, rest⟩) | (_ | ⟨k, rest⟩) | _ | (_ | ⟨n, rest⟩) <;> rfl

/-- PLAN presents nothing outside a round. -/
theorem presented_plan_none {s : State} (h : s.planner.round = none) : s.presented .plan = none := by
  simp [State.presented, Planner.presented, h]

/-- Settles O40: the arbiter's cyclic choice, and what each requester presents. -/
theorem arbiterServes : Obligations.ArbiterServes := by
  unfold Obligations.ArbiterServes
  refine ⟨?served, fun s => ?presented⟩
  case served =>
    rintro s _ rfl
    refine ⟨settle_busy, settle_none, fun r a hfree ha hfirst => ?_, rfl, rfl, rfl⟩
    rw [settle_first hfree ha hfirst]
    cases r <;> exact ⟨rfl, rfl, rfl, rfl, rfl, rfl, rfl, rfl, rfl, rfl, rfl, rfl⟩
  case presented =>
    refine ⟨fun c rest h => ?change, fun hp => ⟨fun r tag a => presented_link_request hp, presented_link_none hp⟩,
      presented_posts_none, fun n rest h => ?bind, fun a rest => presented_posts_other, presented_plan_none,
      fun r hr => ?phase⟩
    case change => cases c <;> exact presented_link_change h
    case bind => rw [presented_posts_bind h, bindVehicle_eq]
    case phase =>
      have hplan := presented_plan hr
      refine ⟨fun n h rest hph => ?_, fun h rest hph => ?_, fun n rest hph => ?_, ?_, fun _ _ _ => rfl, fun _ _ => rfl,
        fun _ _ => rfl⟩
      · rwa [hph] at hplan
      · rwa [hph] at hplan
      · rwa [hph] at hplan
      · rintro (hph | hph | hph | hph) <;> rwa [hph] at hplan

/-! ### The start of a round -/

/-- The bound orders of the ranking, with their posts. -/
def Store.rankedReads (st : Store) (ranking : List Handle) : List (Fin 24 × Handle) :=
  ranking.filterMap (fun h => (allPosts.find? (fun n => st.table[n] = some h)).map (fun n => (n, h)))

/-- The bound orders outside the ranking, by post. -/
def Store.otherReads (st : Store) (ranking : List Handle) : List (Fin 24 × Handle) :=
  allPosts.filterMap (fun n => (st.table[n]).bind (fun h => if ranking.contains h then none else some (n, h)))

/-- The slots whose entries show PENDING. -/
def Store.pendingSlots (st : Store) : List (Fin 64) :=
  allSlots.filter (fun n => (st.dir n).state = some .pending)

/-- The snapshot list is the two parts in order. -/
theorem snapshotList_eq (st : Store) (ranking : List Handle) :
    snapshotList st ranking = st.rankedReads ranking ++ st.otherReads ranking := rfl

/-- The sweep list is the PENDING slots' handles. -/
theorem sweepList_eq (st : Store) :
    sweepList st = st.pendingSlots.map (fun n => ⟨n, (st.dir n).generation⟩) := rfl

/-- A ranked read is a handle of the ranking with a post that holds it. -/
theorem mem_rankedReads {st : Store} {ranking : List Handle} {x : Fin 24 × Handle} (h : x ∈ st.rankedReads ranking) :
    st.table[x.1] = some x.2 := by
  obtain ⟨k, _, hk⟩ := List.mem_filterMap.mp h
  obtain ⟨n, hn, rfl⟩ := Option.map_eq_some_iff.mp hk
  simpa using List.find?_some hn

/-- A ranked handle that some post holds is read. -/
theorem rankedReads_of_mem {st : Store} {ranking : List Handle} {n : Fin 24} {h : Handle} (hn : st.table[n] = some h)
    (hr : h ∈ ranking) : ∃ m, (m, h) ∈ st.rankedReads ranking := by
  have hsome : (allPosts.find? (fun m => st.table[m] = some h)).isSome := by
    rw [List.find?_isSome]
    exact ⟨n, List.mem_finRange n, by simp [hn]⟩
  obtain ⟨m, hm⟩ := Option.isSome_iff_exists.mp hsome
  exact ⟨m, List.mem_filterMap.mpr ⟨h, hr, by rw [hm]; rfl⟩⟩

/-- The ranked reads keep the ranking's order. -/
theorem rankedReads_sublist (st : Store) (ranking : List Handle) :
    ((st.rankedReads ranking).map Prod.snd).Sublist ranking := by
  unfold Store.rankedReads
  induction ranking with
  | nil => exact .slnil
  | cons h t ih =>
    rw [List.filterMap_cons]
    cases allPosts.find? (fun n => st.table[n] = some h) with
    | none => exact ih.cons h
    | some n => exact ih.cons_cons h

/-- The other reads are the bound handles outside the ranking. -/
theorem mem_otherReads {st : Store} {ranking : List Handle} {x : Fin 24 × Handle} :
    x ∈ st.otherReads ranking ↔ st.table[x.1] = some x.2 ∧ x.2 ∉ ranking := by
  unfold Store.otherReads
  rw [List.mem_filterMap]
  simp only [unranked_iff]
  constructor
  · rintro ⟨n, _, h, hn, hr, rfl⟩; exact ⟨hn, hr⟩
  · rintro ⟨hn, hr⟩; exact ⟨x.1, List.mem_finRange _, x.2, hn, hr, rfl⟩

/-- The other reads ascend by post. -/
theorem otherReads_ascending (st : Store) (ranking : List Handle) :
    (st.otherReads ranking).Pairwise (fun x y => x.1 < y.1) := by
  unfold Store.otherReads
  rw [List.pairwise_filterMap]
  refine (List.sortedLT_finRange 24).pairwise.imp fun {a b} hab x hx y hy => ?_
  obtain ⟨_, _, _, rfl⟩ := unranked_iff.mp hx
  obtain ⟨_, _, _, rfl⟩ := unranked_iff.mp hy
  exact hab

/-- Every bound handle is read. -/
theorem snapshot_reads_bound {st : Store} {n : Fin 24} {h : Handle} (ranking : List Handle)
    (hn : st.table[n] = some h) : ∃ m, (m, h) ∈ st.rankedReads ranking ++ st.otherReads ranking := by
  by_cases hr : h ∈ ranking
  · obtain ⟨m, hm⟩ := rankedReads_of_mem hn hr
    exact ⟨m, List.mem_append_left _ hm⟩
  · exact ⟨n, List.mem_append_right _ (mem_otherReads.mpr ⟨hn, hr⟩)⟩

/-- The pending slots are those whose entries show PENDING. -/
theorem mem_pendingSlots {st : Store} {n : Fin 64} : n ∈ st.pendingSlots ↔ (st.dir n).state = some .pending := by
  simp [Store.pendingSlots, allSlots]

/-- The pending slots ascend. -/
theorem pendingSlots_ascending (st : Store) : st.pendingSlots.Pairwise (fun x y => x < y) :=
  (List.sortedLT_finRange 64).pairwise.filter _

/-- The phase a round enters when its list of snapshot reads is what stands in it. -/
theorem advance_snapshot (st : Store) (r : Round) {reads : List (Fin 24 × Handle)} (h : r.phase = .snapshot reads) :
    (Round.advance st r).phase =
      if reads ≠ [] then .snapshot reads
      else if st.pendingSlots ≠ [] then .sweep (sweepList st) else .compute := by
  unfold Round.advance
  rw [h]
  cases reads with
  | cons x l => rw [if_pos (List.cons_ne_nil x l)]; exact h
  | nil =>
    have hempty : (sweepList st).isEmpty = st.pendingSlots.isEmpty := by rw [sweepList_eq, List.isEmpty_map]
    dsimp only
    rw [hempty]
    cases st.pendingSlots <;> rfl

/-- Moving on changes the phase of a round alone. -/
theorem advance_keeps (st : Store) (r : Round) :
    (Round.advance st r).now = r.now ∧ (Round.advance st r).startLead = r.startLead ∧
      (Round.advance st r).grace = r.grace ∧ (Round.advance st r).fallback = r.fallback ∧
      (Round.advance st r).rows = r.rows := by
  unfold Round.advance
  split <;> exact ⟨rfl, rfl, rfl, rfl, rfl⟩

/-- A round as it starts, before its first phase is judged. -/
def State.freshRound (s : State) : Round :=
  { phase := .snapshot (snapshotList s.store s.planner.ranking), now := s.clock.minute, startLead := s.site.startLead
    grace := s.site.grace, fallback := s.site.fallback, rows := [] }

/-- The planner of a started round. -/
theorem startRound_planner (s : State) :
    s.startRound.planner =
      { timer := 0, replan := false, round := some (Round.advance s.store s.freshRound), ranking := s.planner.ranking } :=
  rfl

/-- The start of a round changes of the bus the round marks alone. -/
theorem startRound_bus (s : State) :
    s.startRound.bus = s.bus.mapPosts (fun p => { p with roundMark := true }) := rfl

/-- A change of every post leaves the rest of the bus. -/
theorem mapPosts_keeps (b : Bus) (f : Post → Post) :
    (b.mapPosts f).rotation = b.rotation ∧ (b.mapPosts f).exchange = b.exchange ∧ (b.mapPosts f).queue = b.queue := by
  unfold Bus.mapPosts
  exact ⟨by with_reducible rfl, by with_reducible rfl, by with_reducible rfl⟩

/-- Settles O41: the round timer's expiry, the start after an event, and what a start reads. -/
theorem roundsStart : Obligations.RoundsStart := by
  unfold Obligations.RoundsStart
  refine ⟨fun s => ⟨fun hidle => ?start, fun hround => ?overrun, ?event⟩, ?started⟩
  case start =>
    have hexpires : s.roundTimerExpires = s.startRound := if_neg (by simp [hidle])
    show Host.Outcome.next s.roundTimerExpires.finish = _
    rw [hexpires, finish_settle (.inl (Option.isSome_iff_ne_none.mp (startRound_round s)))]
  case overrun =>
    have hexpires : s.roundTimerExpires = { s with
        planner := { s.planner with timer := 0 }, attention := { s.attention with roundOverrun := true } } :=
      if_pos (Option.isSome_iff_ne_none.mpr hround)
    show Host.Outcome.next s.roundTimerExpires.finish = _
    rw [hexpires]
    exact congrArg _ (finish_settle (.inl hround))
  case event =>
    rintro _ rfl
    exact ⟨finish_start, finish_settle⟩
  case started =>
    rintro s _ rfl
    have hreads : ∀ x ∈ s.store.rankedReads s.planner.ranking ++ s.store.otherReads s.planner.ranking,
        s.store.table[x.1] = some x.2 := fun x hx =>
      (List.mem_append.mp hx).elim mem_rankedReads (fun h => (mem_otherReads.mp h).1)
    refine ⟨Round.advance s.store s.freshRound, _, _, _, startRound_planner s, advance_keeps s.store s.freshRound,
      fun n => ?mark, ?bus, rankedReads_sublist _ _, otherReads_ascending _ _,
      fun x hx => (mem_otherReads.mp hx).2, hreads, fun n h => snapshot_reads_bound _, pendingSlots_ascending _,
      fun n => mem_pendingSlots, advance_snapshot s.store s.freshRound (congrArg Phase.snapshot (snapshotList_eq _ _)),
      s.startRound_clock, s.startRound_store, s.startRound_arbiter, s.startRound_link, s.startRound_plug,
      s.startRound_classes, s.startRound_supply, s.startRound_site, s.startRound_attention, s.startRound_pending⟩
    case mark => rw [startRound_bus, mapPosts_get]
    case bus => rw [startRound_bus]; exact mapPosts_keeps _ _

end Sys2Proof.Machine

/-! PROOF. The start of an exchange, and the plug lines. -/

namespace Sys2Proof.Machine

/-! ### EXCHANGE_START -/

/-- A post once an exchange is sent, with both claims written out. -/
theorem visited_eq (p : Post) (setpoint : Bool) :
    p.visited setpoint = { p with
      fetchMark := true, claim := if setpoint then false else p.claim
      finalOwed := if setpoint then false else p.finalOwed } := by
  cases setpoint <;> rfl

/-- No post to serve: no claim and none in service. -/
theorem startExchange_idle {b : Bus} (h : ∀ n : Fin 24, b.posts[n].inService = false ∧ b.posts[n].finalOwed = false) :
    b.startExchange = b := by
  have hclaims (n : Fin 24) : b.posts[n].holdsClaim = false :=
    (if_neg (ne_true_of_eq_false (h n).1)).trans (h n).2
  have hclaimant : b.claimant = none := List.find?_eq_none.mpr fun n _ => ne_true_of_eq_false (hclaims n)
  have hnext : b.nextInRotation = none := List.find?_eq_none.mpr fun n _ => ne_true_of_eq_false (h n).1
  unfold Bus.startExchange
  rw [hclaimant, hnext]

/-- The lowest claimant is served first, with SETPOINT. -/
theorem startExchange_claim {b : Bus} {n : Fin 24} (hn : b.posts[n].holdsClaim = true)
    (hlow : ∀ m < n, b.posts[m].holdsClaim = false) : b.startExchange = b.send n true := by
  have hclaimant : b.claimant = some n := find_allPosts hn hlow
  unfold Bus.startExchange
  rw [hclaimant]

/-- Without a claim the next in-service post of the rotation is served, with SETPOINT when owed. -/
theorem startExchange_rotation {b : Bus} {n : Fin 24} (hclaims : ∀ m : Fin 24, b.posts[m].holdsClaim = false)
    (hn : b.posts[n].inService = true)
    (hnext : ∀ m : Fin 24, b.posts[m].inService = true → n - (b.rotation + 1) ≤ m - (b.rotation + 1)) :
    b.startExchange = { b.send n b.posts[n].owed with rotation := n } := by
  have hclaimant : b.claimant = none := List.find?_eq_none.mpr fun m _ => ne_true_of_eq_false (hclaims m)
  have hrotation : b.nextInRotation = some n := find_rotation hn hnext
  unfold Bus.startExchange
  rw [hclaimant, hrotation]

/-- What sending to a post writes into the bus, with a rotation pointer set. -/
theorem send_eq (b : Bus) (n rotation : Fin 24) (setpoint : Bool) :
    { b.send n setpoint with rotation := rotation } = { b with
      posts := b.posts.set n { b.posts[n] with
        fetchMark := true, claim := if setpoint then false else b.posts[n].claim
        finalOwed := if setpoint then false else b.posts[n].finalOwed }
      rotation := rotation
      exchange := some
        { post := n, level := if setpoint then some (b.posts[n].recorded / 100) else none
          pollMode := b.posts[n].pollMode, fetchMark := b.posts[n].fetchMark, plugInSince := false, timer := 0 } } := by
  unfold Bus.send Bus.modify
  dsimp only
  rw [visited_eq]

/-- Settles O46: claims first by post number, then the rotation, each written out. -/
theorem exchangeStarts : Obligations.ExchangeStarts := by
  unfold Obligations.ExchangeStarts
  intro s
  have hfree (h : s.bus.exchange = none) :
      exec .exchangeStart s = .next { s with bus := s.bus.startExchange } :=
    congrArg Host.Outcome.next (if_neg (by simp [h]))
  refine ⟨fun h => ?busy, fun h hnone => ?idle, fun n rotation setpoint p h hp hchoice => ?serves⟩
  case busy => exact congrArg Host.Outcome.next (if_pos (Option.isSome_iff_ne_none.mpr h))
  case idle => rw [hfree h, startExchange_idle hnone]
  case serves =>
    subst hp
    have hsent : s.bus.startExchange = { s.bus.send n setpoint with rotation := rotation } := by
      rcases hchoice with ⟨hclaim, hlow, rfl, rfl⟩ | ⟨hclaims, hin, hnext, howed, rfl⟩
      · exact startExchange_claim hclaim hlow
      · have : s.bus.posts[rotation].owed = setpoint := by
          rw [Bool.eq_iff_iff, howed]
          exact decide_eq_true_iff
        rw [startExchange_rotation hclaims hin hnext, this]
    rw [hfree h, hsent, send_eq]

/-! ### The plug lines -/

/-- A running filter takes the line's level and stops. -/
theorem expire_running {f : LineFilter} (h : f.timer ≠ none) :
    f.expire = { f with filtered := f.line, timer := none } :=
  if_pos (Option.isSome_iff_ne_none.mpr h)

/-- A plug filter that runs gives its event at the expiry. -/
theorem plugFilterExpires_running {s : State} {n : Fin 24} (h : s.plug[n].timer ≠ none) :
    s.plugFilterExpires n = State.plugEvent
      { s with plug := s.plug.set n { s.plug[n] with filtered := s.plug[n].line, timer := none } } n s.plug[n].line := by
  unfold State.plugFilterExpires
  rw [if_pos (Option.isSome_iff_ne_none.mpr h), expire_running h]

/-- An idle plug filter does not expire. -/
theorem plugFilterExpires_idle {s : State} {n : Fin 24} (h : s.plug[n].timer = none) : s.plugFilterExpires n = s :=
  if_neg (ne_true_of_eq_false (Option.isSome_eq_false_iff.mpr (Option.isNone_iff_eq_none.mpr h)))

/-- A plug-in event is taken at an EMPTY in-service post. -/
theorem plugInEvent_taken {s : State} {n : Fin 24} (hin : s.bus.posts[n].inService = true)
    (hstate : s.bus.posts[n].state = .empty) :
    s.plugInEvent n = { s with
      bus := (s.bus.modify n Post.plugIn).notePlugIn n, attention := s.attention.setPluggedIn n } := by
  unfold State.plugInEvent Bus.plugIn
  rw [if_pos ⟨hin, hstate⟩, if_pos ⟨hin, hstate⟩]

/-- The plug-out of a post, with the unbind of a BOUND one. -/
theorem plugOut_eq {b : Bus} {table : Vector (Option Handle) 24} {n : Fin 24} (hin : b.posts[n].inService = true)
    (hstate : b.posts[n].state = .occupied ∨ b.posts[n].state = .bound) :
    b.plugOut table n = (b.modify n Post.plugOut).present
      (if b.posts[n].state = .bound then boundAccess table n (fun h => .unbind n h .unplug) else []) := by
  unfold Bus.plugOut
  by_cases hbound : b.posts[n].state = .bound
  · rw [if_pos ⟨hin, hbound⟩, if_pos hbound]
  · rw [if_neg (fun h => hbound h.2), if_pos ⟨hin, hstate.resolve_right hbound⟩, if_neg hbound]
    simp [Bus.present]

/-- A plug-out event is taken at an OCCUPIED or BOUND in-service post. -/
theorem plugOutEvent_taken {s : State} {n : Fin 24} (hin : s.bus.posts[n].inService = true)
    (hstate : s.bus.posts[n].state = .occupied ∨ s.bus.posts[n].state = .bound) :
    s.plugOutEvent n = { s with
      bus := (s.bus.modify n Post.plugOut).present
        (if s.bus.posts[n].state = .bound then boundAccess s.store.table n (fun h => .unbind n h .unplug) else [])
      attention := s.attention.setPluggedOut n, arbiter := s.arbiter.notePlugOut n } := by
  unfold State.plugOutEvent
  rw [if_pos ⟨hin, hstate⟩, plugOut_eq hin hstate]

/-- An event the post does not take changes nothing. -/
theorem plugEvent_refused {s : State} {n : Fin 24} {level : Level}
    (h : s.bus.posts[n].inService = false ∨ (level = .high ∧ s.bus.posts[n].state ≠ .empty) ∨
      (level = .low ∧ s.bus.posts[n].state ≠ .occupied ∧ s.bus.posts[n].state ≠ .bound)) :
    s.plugEvent n level = s := by
  cases level with
  | high =>
    refine if_neg fun ⟨hin, hempty⟩ => ?_
    rcases h with hout | ⟨_, hne⟩ | ⟨hlow, _⟩
    · exact ne_true_of_eq_false hout hin
    · exact hne hempty
    · cases hlow
  | low =>
    refine if_neg fun ⟨hin, hstate⟩ => ?_
    rcases h with hout | ⟨hhigh, _⟩ | ⟨_, hocc, hbound⟩
    · exact ne_true_of_eq_false hout hin
    · cases hhigh
    · exact hstate.elim hocc hbound

/-- A plug-out is noted against the binding attempt in flight at the post, and no other. -/
theorem notePlugOut_eq {x a : Arbiter} {n : Fin 24}
    (h : (∃ note, x.inFlight = some (.bind n note) ∧
        a = { x with inFlight := some (.bind n { note with plugOut := true }) }) ∨
      (∀ note, x.inFlight ≠ some (.bind n note)) ∧ a = x) : x.notePlugOut n = a := by
  unfold Arbiter.notePlugOut
  rcases h with ⟨note, hf, rfl⟩ | ⟨hother, rfl⟩
  · rw [hf]
    exact if_pos rfl
  · split
    next p note hf =>
      refine if_neg fun hp => hother note ?_
      rw [hf, hp]
    next => rfl

/-- Settles O50: the line, its filter, and the two events. -/
theorem plugLines : Obligations.PlugLines := by
  unfold Obligations.PlugLines
  rintro s n _ rfl
  refine ⟨fun level f h => ?change, fun h => ?idle, ?expiry⟩
  case change =>
    have hchange : s.plug[n].change level = f := by
      refine lineFilter_change _ _ _ ?_
      rcases h with h | ⟨hne, heq, rfl⟩ | ⟨hne, hne', rfl⟩
      · exact .inl h
      · exact .inr ⟨hne, by rw [if_pos heq]⟩
      · exact .inr ⟨hne, by rw [if_neg hne']⟩
    rw [← hchange]
    rfl
  case idle => exact congrArg (fun t => Host.Outcome.next (State.finish t)) (plugFilterExpires_idle h)
  case expiry =>
    rintro _ hrun rfl
    have hexec : exec (.plugFilterExpiry n) s = .next (State.finish (State.plugEvent
        { s with plug := s.plug.set n { s.plug[n] with filtered := s.plug[n].line, timer := none } } n
        s.plug[n].line)) :=
      congrArg (fun t => Host.Outcome.next (State.finish t)) (plugFilterExpires_running hrun)
    refine ⟨fun h => ?refused, fun hin hline hstate => ?plugIn, fun a hin hline hstate ha => ?plugOut⟩
    case refused =>
      rw [hexec]
      exact congrArg (fun t => Host.Outcome.next (State.finish t)) (plugEvent_refused h)
    case plugIn =>
      rw [hexec, hline]
      exact congrArg (fun t => Host.Outcome.next (State.finish t)) (plugInEvent_taken hin hstate)
    case plugOut =>
      rw [hexec, hline, ← notePlugOut_eq ha]
      exact congrArg (fun t => Host.Outcome.next (State.finish t)) (plugOutEvent_taken hin hstate)

end Sys2Proof.Machine

/-! PROOF. The site lines, the meter, and the moves of the site mode. -/

namespace Sys2Proof.Machine

/-! ### The site lines and the meter -/

/-- A change of a site line stores its changed filter. -/
theorem exec_siteLineChange (line : SiteLine) (level : Level) (s : State) :
    exec (.siteLineChange line level) s =
      .next { s with supply := s.supply.setFilter ((s.supply.filter line).change level) line } := rfl

/-- A site filter that runs has the calls judged anew at its expiry. -/
theorem siteFilterExpires_running {s : State} {line : SiteLine} (h : (s.supply.filter line).timer ≠ none) :
    s.siteFilterExpires line = s.judgeCalls (s.supply.setFilter
      { s.supply.filter line with filtered := (s.supply.filter line).line, timer := none } line) := by
  unfold State.siteFilterExpires
  rw [if_pos (Option.isSome_iff_ne_none.mpr h), expire_running h]

/-- An idle site filter does not expire. -/
theorem siteFilterExpires_idle {s : State} {line : SiteLine} (h : (s.supply.filter line).timer = none) :
    s.siteFilterExpires line = s := if_neg (by simp [h])

/-- Settles O51: each line's change and expiry, the restore timer and the meter. -/
theorem siteLines : Obligations.SiteLines := by
  unfold Obligations.SiteLines
  intro s
  refine ⟨fun level f h => ?limit, fun level f h => ?shed, fun h => ?limitIdle, fun h => ?shedIdle,
    fun h => ?limitExpiry, fun h => ?shedExpiry, fun h => ?restoreIdle, fun h => ?restored, fun edge => ?meter⟩
  case limit => rw [exec_siteLineChange, ← lineFilter_change _ _ _ h]; rfl
  case shed => rw [exec_siteLineChange, ← lineFilter_change _ _ _ h]; rfl
  case limitIdle =>
    exact congrArg (fun t => Host.Outcome.next (State.finish t)) (siteFilterExpires_idle (line := .limit) h)
  case shedIdle =>
    exact congrArg (fun t => Host.Outcome.next (State.finish t)) (siteFilterExpires_idle (line := .shed) h)
  case limitExpiry =>
    exact congrArg (fun t => Host.Outcome.next (State.finish t)) (siteFilterExpires_running (line := .limit) h)
  case shedExpiry =>
    exact congrArg (fun t => Host.Outcome.next (State.finish t)) (siteFilterExpires_running (line := .shed) h)
  case restoreIdle => exact congrArg (fun t => Host.Outcome.next (State.finish t)) (restoreExpires_idle h)
  case restored => exact congrArg (fun t => Host.Outcome.next (State.finish t)) (restoreExpires_eq h)
  case meter =>
    refine ⟨fun h => ?_, fun h hroom => ?_, fun h hfull => ?_⟩
    · exact congrArg Host.Outcome.next (if_neg h)
    · exact congrArg Host.Outcome.next ((if_pos h).trans (if_pos hroom))
    · exact congrArg Host.Outcome.next ((if_pos h).trans (if_neg (Nat.not_lt.mpr hfull)))

/-! ### The moves of the site mode -/

/-- A mode that does not change leaves the state. -/
theorem changeMode_same {s : State} {m : SiteMode} {r : Option Nat} (h : m = s.supply.mode) : s.changeMode m r = s :=
  if_pos h

/-- A mode that changes, with the engine's part at the entry into SHED. -/
theorem changeMode_other {s : State} {m : SiteMode} {r : Option Nat} (h : m ≠ s.supply.mode) :
    s.changeMode m r = { s with
      supply := { s.supply with mode := m, restore := r }
      attention := { s.attention with modeChange := true }
      planner := { s.planner with replan := true }
      bus := if m = .shed then s.bus.enterShed s.store.table else s.bus } := if_neg h

/-- The calls ask for no move. -/
theorem respond_stays {x old : Supply} {delay : Nat} (hshed : old.shedCalled = x.shedCalled)
    (h : old.limitCalled = x.limitCalled ∨ x.mode = .shed ∨ x.mode = .restoring ∨
      x.limitCalled = true ∧ x.mode = .limited ∨ x.limitCalled = false ∧ x.mode = .normal) :
    x.respond old delay = (x.mode, x.restore) := by
  unfold Supply.respond
  rw [hshed]
  have hraise : ¬ (!old.limitCalled && x.limitCalled && x.mode = .normal) = true := by
    rcases h with h | h | h | ⟨_, h⟩ | ⟨h, _⟩ <;> simp [h]
  have hfall : ¬ (old.limitCalled && !x.limitCalled && x.mode = .limited) = true := by
    rcases h with h | h | h | ⟨h, _⟩ | ⟨_, h⟩ <;> simp [h]
  rw [if_neg (by simp), if_neg (by simp), if_neg hraise, if_neg hfall]

/-- Shed is called anew. -/
theorem respond_shed {x old : Supply} {delay : Nat} (h : old.shedCalled = false) (h' : x.shedCalled = true) :
    x.respond old delay = (.shed, none) := by
  unfold Supply.respond
  rw [h, h']
  rfl

/-- The shed call ends while in SHED. -/
theorem respond_restore {x old : Supply} {delay : Nat} (h : old.shedCalled = true) (h' : x.shedCalled = false)
    (hmode : x.mode = .shed) :
    x.respond old delay =
      if delay = 0 then (if x.limitCalled then .limited else .normal, none) else (.restoring, some 0) := by
  unfold Supply.respond
  rw [h, h', hmode]
  rfl

/-- Limit is called anew while in NORMAL. -/
theorem respond_limit {x old : Supply} {delay : Nat} (hshed : old.shedCalled = x.shedCalled)
    (h : old.limitCalled = false) (h' : x.limitCalled = true) (hmode : x.mode = .normal) :
    x.respond old delay = (.limited, none) := by
  unfold Supply.respond
  rw [hshed, h, h', hmode]
  cases x.shedCalled <;> rfl

/-- The limit call ends while in LIMITED. -/
theorem respond_unlimit {x old : Supply} {delay : Nat} (hshed : old.shedCalled = x.shedCalled)
    (h : old.limitCalled = true) (h' : x.limitCalled = false) (hmode : x.mode = .limited) :
    x.respond old delay = (.normal, none) := by
  unfold Supply.respond
  rw [hshed, h, h', hmode]
  cases x.shedCalled <;> rfl

/-- A post at the entry into SHED: grant 0, and the claim unless it is OUT or its sent grant is known to be 0. -/
theorem enterShed_eq (p : Post) :
    p.enterShed = { p with recorded := 0, claim := p.inService && (p.sent ≠ some 0 || p.claim) } := by
  have hclaim : ((p.setRecorded 0).claim || (p.inService && decide (p.sent ≠ some 0))) =
      (p.inService && (decide (p.sent ≠ some 0) || p.claim)) := by
    rw [Bool.eq_iff_iff]
    unfold Post.setRecorded Post.belowSent
    cases p.sent with
    | none => cases p.inService <;> simp
    | some w =>
      cases p.inService with
      | false => simp
      | true => simp; grind
  unfold Post.enterShed
  rw [hclaim]
  rfl

/-- Settles O52: the table of moves, and the entry into SHED. -/
theorem siteModeMoves : Obligations.SiteModeMoves := by
  unfold Obligations.SiteModeMoves
  intro s t x wasShed isShed wasLimit isLimit hmode hrestore ht hws his hwl hil
  have hws := shedCalled_eq hws
  have his := shedCalled_eq his
  have hwl := limitCalled_eq hwl
  have hil := limitCalled_eq hil
  subst hws his hwl hil ht
  refine ⟨fun hshed hlimit => ?stays, fun m r hmove => ?moves⟩
  case stays =>
    unfold State.judgeCalls
    rw [respond_stays hshed hlimit]
    exact changeMode_same rfl
  case moves =>
    have hrespond : x.respond s.supply s.site.restoreDelay = (m, r) ∧ m ≠ x.mode := by
      rcases hmove with ⟨h, h', hne, rfl, rfl⟩ | ⟨h, h', hm, hdelay⟩ | ⟨hs, h, h', hm, rfl, rfl⟩ |
        ⟨hs, h, h', hm, rfl, rfl⟩
      · exact ⟨respond_shed h h', hne.symm⟩
      · rw [respond_restore h h' hm, hm]
        rcases hdelay with ⟨hd, rfl, rfl⟩ | ⟨hd, rfl, rfl⟩
        · rw [if_neg (by omega)]
          exact ⟨rfl, nofun⟩
        · rw [if_pos hd]
          exact ⟨rfl, by split <;> nofun⟩
      · exact ⟨respond_limit hs h h' hm, by rw [hm]; nofun⟩
      · exact ⟨respond_unlimit hs h h' hm, by rw [hm]; nofun⟩
    obtain ⟨hrespond, hne⟩ := hrespond
    have hjudge : s.judgeCalls x = { s with
        supply := { x with mode := m, restore := r }
        attention := { s.attention with modeChange := true }
        planner := { s.planner with replan := true }
        bus := if m = .shed then s.bus.enterShed s.store.table else s.bus } := by
      unfold State.judgeCalls
      rw [hrespond]
      exact changeMode_other hne
    have hbus : (s.judgeCalls x).bus = if m = .shed then s.bus.enterShed s.store.table else s.bus := by rw [hjudge]
    refine ⟨?_, fun hm => by rw [hbus, if_neg hm], fun hm => ?_⟩
    · rw [hbus]; exact hjudge
    · rw [hbus, if_pos hm]
      exact ⟨fun n => (enterShed_post _ _ n).trans (enterShed_eq _), enterShed_queue _ _, enterShed_rotation _ _,
        enterShed_exchange _ _⟩

end Sys2Proof.Machine

/-! PROOF. The reads and the computation of a round. -/

namespace Sys2Proof.Machine

/-! ### SNAPSHOT_READ and SWEEP_READ -/

theorem exec_snapshotRead {s : State} {n : Fin 24} {h : Handle}
    (hf : s.arbiter.inFlight = some (.plan (.snapshot n h))) :
    exec .snapshotRead s = .next (s.completed.snapshotRead n h).advanceRound.finish := by
  show Host.Outcome.next _ = _
  rw [hf]

theorem exec_sweepRead {s : State} {h : Handle} (hf : s.arbiter.inFlight = some (.plan (.sweep h))) :
    exec .sweepRead s = .next (s.completed.sweepRead h).advanceRound.finish := by
  show Host.Outcome.next _ = _
  rw [hf]

/-- A stale target is not read. -/
theorem snapshotRead_stale {s : State} {n : Fin 24} {h : Handle} (hstale : s.staleTarget n h) :
    s.snapshotRead n h = s := if_neg hstale

/-- A damaged target is closed. -/
theorem snapshotRead_damaged {s : State} {n : Fin 24} {h : Handle} (hn : s.store.table[n] = some h)
    (hlive : s.store.verdict h = .live) (hread : s.store.readOrder h.slot = none) :
    s.snapshotRead n h = s.damaged h := by
  unfold State.snapshotRead
  rw [if_pos ⟨hn, hlive⟩, hread]

/-- A target that stands adds its row. -/
theorem snapshotRead_order {s : State} {n : Fin 24} {h : Handle} {o : Order} (hb : s.boundOrder n h o) :
    s.snapshotRead n h = { s with planner := s.planner.mapRound (fun r => r.addRow (s.makeRow n h o)) } := by
  obtain ⟨hn, hlive, hread⟩ := hb
  unfold State.snapshotRead
  rw [if_pos ⟨hn, hlive⟩, hread]

/-- A change of the round in flight. -/
theorem mapRound_eq {p : Planner} {r : Round} (h : p.round = some r) (f : Round → Round) :
    p.mapRound f = { p with round := some (f r) } := by
  unfold Planner.mapRound
  rw [h]
  rfl

/-- The phase a round moves on to, as one choice. -/
theorem advance_eq (st : Store) (r : Round) :
    Round.advance st r =
      if (r.phase = .snapshot [] ∧ ∀ n, (st.dir n).state ≠ some .pending) ∨ r.phase = .sweep [] then
        { r with phase := .compute }
      else if r.phase = .snapshot [] then { r with phase := .sweep (sweepList st) }
      else r := by
  unfold Round.advance
  split
  next hsnapshot =>
    by_cases hempty : ∀ n, (st.dir n).state ≠ some .pending
    · rw [if_pos ((sweepList_isEmpty st).mpr hempty), if_pos (.inl ⟨hsnapshot, hempty⟩)]
    · have hsome : ¬ (sweepList st).isEmpty = true := fun h => hempty ((sweepList_isEmpty st).mp h)
      rw [if_neg hsome, if_neg (by rintro (⟨_, h⟩ | h); exacts [hempty h, nomatch hsnapshot.symm.trans h]),
        if_pos hsnapshot]
  next hsweep => rw [if_pos (.inr hsweep)]
  next hsnapshot hsweep => rw [if_neg (by rintro (⟨h, _⟩ | h); exacts [hsnapshot h, hsweep h]), if_neg hsnapshot]

/-- A sweep read leaves a slot whose entry is not that of a live PENDING order. -/
theorem sweepRead_other {s : State} {h : Handle} {r : Round} (hr : s.planner.round = some r)
    (hother : s.store.verdict h ≠ .live ∨ (s.store.dir h.slot).state ≠ some .pending) : s.sweepRead h = s := by
  unfold State.sweepRead
  rw [hr]
  exact if_neg fun ⟨hlive, hpending⟩ => hother.elim (· hlive) (· hpending)

/-- A sweep read closes a damaged PENDING order. -/
theorem sweepRead_damaged {s : State} {h : Handle} {r : Round} (hr : s.planner.round = some r)
    (hlive : s.store.verdict h = .live) (hpending : (s.store.dir h.slot).state = some .pending)
    (hread : s.store.readOrder h.slot = none) : s.sweepRead h = s.damaged h := by
  unfold State.sweepRead
  rw [hr]
  dsimp only
  rw [if_pos ⟨hlive, hpending⟩, hread]

/-- A sweep read judges the departure of a PENDING order. -/
theorem sweepRead_order {s : State} {h : Handle} {r : Round} {o : Order} (hr : s.planner.round = some r)
    (hlive : s.store.verdict h = .live) (hpending : (s.store.dir h.slot).state = some .pending)
    (hread : s.store.readOrder h.slot = some o) :
    s.sweepRead h =
      if aheadMinutes r.now o.departure < -(r.grace : Int) then s.closeOrder h o (outcomeRule o) else s := by
  unfold State.sweepRead
  rw [hr]
  dsimp only
  rw [if_pos ⟨hlive, hpending⟩, hread]
  exact if_congr decide_eq_true_iff rfl rfl

/-- A PENDING order without a reached minute lapses. -/
theorem outcomeRule_lapsed {o : Order} (hstate : o.state = .pending) (hreached : o.reached = none) :
    outcomeRule o = .lapsed := by
  rw [outcomeRule_written, hreached, hstate]
  rfl

/-- Settles O42: the two reads of a round, and how it moves on. -/
theorem roundReads : Obligations.RoundReads := by
  unfold Obligations.RoundReads
  refine ⟨fun s n h r hf hr => ⟨fun hstale => ?stale, fun hn hlive hread => ?damaged, fun o p hb hp => ?row, ?advance⟩,
    fun s h r hf hr => ⟨fun hother => ?other, fun hlive hpending hread => ?broken, fun o hlive hpending hread =>
      ⟨fun hahead => ?waits, fun hbehind hstate hreached => ?lapsed⟩⟩⟩
  case stale => rw [exec_snapshotRead hf, snapshotRead_stale (s := s.completed) hstale]
  case damaged => rw [exec_snapshotRead hf, snapshotRead_damaged (s := s.completed) hn hlive hread]
  case row =>
    have hparams : s.classes[o.cls].paramsOrZero = p := by
      unfold ClassEntry.paramsOrZero
      rw [hp]
      rfl
    rw [exec_snapshotRead hf, snapshotRead_order (s := s.completed) hb, mapRound_eq (p := s.completed.planner) hr,
      ← hparams]
    rfl
  case advance =>
    intro t r hr
    unfold State.advanceRound
    rw [mapRound_eq hr, advance_eq]
  case other => rw [exec_sweepRead hf, sweepRead_other (s := s.completed) hr hother]
  case broken => rw [exec_sweepRead hf, sweepRead_damaged (s := s.completed) hr hlive hpending hread]
  case waits =>
    rw [exec_sweepRead hf, sweepRead_order (s := s.completed) hr hlive hpending hread, if_neg (Int.not_lt.mpr hahead)]
  case lapsed =>
    rw [exec_sweepRead hf, sweepRead_order (s := s.completed) hr hlive hpending hread, if_pos hbehind,
      outcomeRule_lapsed hstate hreached]

/-! ### ROUND_COMPUTE -/

/-- What the allocator is handed of a row, field by field. -/
theorem allocRow_eq (row : Row) (now startLead : Nat) (fallback : Int) :
    row.allocRow now startLead fallback =
      { request := (row.estimate now startLead fallback).request
        heater := row.heater
        lowest := (heaterLimits row.params row.heater row.feedLimit).lowest
        half := (heaterLimits row.params row.heater row.feedLimit).half
        pmaxEff := min row.params.pmax row.feedLimit / 100 * 100
        sent := row.sent
        eligible := row.eligible now startLead fallback
        holding := row.holding
        nonCandidate := decide (row.state = .stalled ∨ row.inService = false ∨ row.silent = true ∨
          (row.estimate now startLead fallback).request = 0) } := by
  have hmark (request : Nat) : row.nonCandidate request =
      decide (row.state = .stalled ∨ row.inService = false ∨ row.silent = true ∨ request = 0) := by
    unfold Row.nonCandidate
    rw [Bool.eq_iff_iff]
    simp [or_assoc]
  unfold Row.allocRow
  rw [hmark]
  rfl

/-- The floor pass keeps its rows in their order. -/
theorem floorPass_rows : ∀ (rows : List AllocRow) (l : Remainder), (floorPass rows l).1.map Prod.fst = rows
  | [], _ => rfl
  | a :: rest, _ => congrArg (a :: ·) (floorPass_rows rest _)

/-- The fill pass keeps its rows in their order. -/
theorem fillPass_rows : ∀ (rows : List (AllocRow × Nat)) (l : Remainder),
    (fillPass rows l).1.map Prod.fst = rows.map Prod.fst
  | [], _ => rfl
  | (a, _) :: rest, _ => congrArg (a :: ·) (fillPass_rows rest _)

/-- The allocation keeps its rows in their order. -/
theorem allocate_rows (headroom ramp : Nat) (rows : List AllocRow) :
    (allocate headroom ramp rows).1.map Prod.fst = rows :=
  (fillPass_rows _ _).trans (floorPass_rows _ _)

/-- The result of an entry given its grant, read from the entry alone. -/
def RowEntry.granted (r : Round) (e : RowEntry) (g : AllocRow × Nat) : RowEntry :=
  { e with
    result := some
      { estimate := e.row.estimate r.now r.startLead r.fallback
        eligible := e.row.eligible r.now r.startLead r.fallback, holding := e.row.holding, grant := g.2
        short := (e.row.eligible r.now r.startLead r.fallback || e.row.holding) &&
          g.2 < (e.row.estimate r.now r.startLead r.fallback).request } }

/-- Grants paired with the rows they were asked for set each entry's own result. -/
theorem zipWith_withGrant (r : Round) : ∀ (entries : List RowEntry) (grants : List (AllocRow × Nat)),
    grants.map Prod.fst = entries.map (fun e => e.row.allocRow r.now r.startLead r.fallback) →
    List.zipWith (RowEntry.withGrant r) entries grants = List.zipWith (RowEntry.granted r) entries grants
  | [], _, _ => rfl
  | _ :: _, [], _ => rfl
  | e :: entries, (a, g) :: grants, h => by
    obtain ⟨hrow, hrest⟩ := List.cons.inj h
    have hhead : e.withGrant r (a, g) = e.granted r (a, g) := by
      obtain rfl : a = _ := hrow
      rfl
    rw [List.zipWith_cons_cons, List.zipWith_cons_cons, hhead, zipWith_withGrant r entries grants hrest]

/-- A computed round holds as many rows as before. -/
theorem computed_length (r : Round) (headroom ramp : Nat) : (r.computed headroom ramp).length = r.rows.length := by
  unfold Round.computed
  rw [List.length_zipWith, allocate_length, List.length_map, Nat.min_self]
  exact (rankRows_perm _ _ _).length_eq

/-- Settles O43: the ranking, the allocation in its order, and the reading of the meter. -/
theorem roundCompute : Obligations.RoundCompute := by
  unfold Obligations.RoundCompute
  intro s r hr hphase
  refine ⟨rankRows r.now r.fallback r.rows, r.computed (s.headroomNow r.rows) (rampAllowance s.site),
    rankRows_perm _ _ _, rankRows_sorted _ _ _, ?rows, ?effect, computed_length _ _ _⟩
  case rows =>
    simp only [← allocRow_eq]
    exact zipWith_withGrant r _ _ (allocate_rows _ _ _)
  case effect =>
    have hexec : exec .roundCompute s =
        .next (match s.planner.round with
          | some r => if r.phase = .compute then (s.compute r).releaseIfDone.finish else s
          | none => s) := rfl
    rw [hexec, hr]
    exact congrArg Host.Outcome.next (if_pos hphase)

end Sys2Proof.Machine

/-! PROOF. The write-back and the release of a round. -/

namespace Sys2Proof.Machine

/-! ### WRITE_BACK -/

theorem exec_writeBack {s : State} {n : Fin 24} (hf : s.arbiter.inFlight = some (.plan (.writeBack n))) :
    exec .writeBack s = .next (s.completed.writeBack n).releaseIfDone.finish := by
  show Host.Outcome.next _ = _
  rw [hf]

/-- The write-back of a post is that of its row. -/
theorem writeBack_row {s : State} {n : Fin 24} {r : Round} {e : RowEntry} (hr : s.planner.round = some r)
    (he : r.rows.find? (fun e => e.row.post = n) = some e) : s.writeBack n = s.writeBackRow r e := by
  unfold State.writeBack
  rw [hr]
  dsimp only
  rw [he]

/-- A struck or stale row is discarded. -/
theorem writeBackRow_discarded {s : State} {r : Round} {e : RowEntry}
    (h : e.struck = true ∨ s.store.verdict e.row.handle ≠ .live) : s.writeBackRow r e = s := if_pos h

/-- The row of a damaged record is closed. -/
theorem writeBackRow_damaged {s : State} {r : Round} {e : RowEntry} (hstruck : e.struck = false)
    (hlive : s.store.verdict e.row.handle = .live) (hread : s.store.readOrder e.row.handle.slot = none) :
    s.writeBackRow r e = s.damaged e.row.handle := by
  unfold State.writeBackRow
  rw [if_neg (not_or.mpr ⟨ne_true_of_eq_false hstruck, not_not_intro hlive⟩), hread]

/-- The row of an order still bound at its post is decided; any other is left. -/
theorem writeBackRow_order {s : State} {r : Round} {e : RowEntry} {x : RowResult} {o : Order}
    (hstruck : e.struck = false) (hlive : s.store.verdict e.row.handle = .live)
    (hread : s.store.readOrder e.row.handle.slot = some o) (hx : e.result = some x) :
    s.writeBackRow r e = if o.boundPost = some e.row.post then s.decide r e x o else s := by
  unfold State.writeBackRow
  rw [if_neg (not_or.mpr ⟨ne_true_of_eq_false hstruck, not_not_intro hlive⟩), hread, hx]

/-- The overstay of an order. -/
theorem overstayed_iff (now grace : Nat) (o : Order) :
    behindBy now o.departure (o.overstayLimit grace) = true ↔
      aheadMinutes now o.departure < -((o.hold.getD grace : Nat) : Int) := decide_eq_true_iff

/-- An overstayed order closes with the outcome rule. -/
theorem decide_overstayed {s : State} {r : Round} {e : RowEntry} {x : RowResult} {o : Order}
    (h : aheadMinutes r.now o.departure < -((o.hold.getD r.grace : Nat) : Int)) :
    s.decide r e x o = s.closeOrder e.row.handle o (outcomeRule o) :=
  if_pos ((overstayed_iff _ _ _).mpr h)

/-- A STALLED order takes its estimate alone. -/
theorem decide_stalled {s : State} {r : Round} {e : RowEntry} {x : RowResult} {o : Order}
    (h : -((o.hold.getD r.grace : Nat) : Int) ≤ aheadMinutes r.now o.departure) (hstate : o.state = .stalled) :
    s.decide r e x o = State.keepRow
      { s with store := s.store.writeOrder e.row.handle.slot { o with estimate := some x.estimate } } e.row.post := by
  unfold State.decide
  rw [if_neg (fun hb => Int.not_lt.mpr h ((overstayed_iff _ _ _).mp hb)), if_pos hstate]

/-- Any other order takes the decision. -/
theorem decide_other {s : State} {r : Round} {e : RowEntry} {x : RowResult} {o : Order}
    (h : -((o.hold.getD r.grace : Nat) : Int) ≤ aheadMinutes r.now o.departure) (hstate : o.state ≠ .stalled) :
    s.decide r e x o = (s.writeDecision e x o r.now).keepRow e.row.post := by
  unfold State.decide
  rw [if_neg (fun hb => Int.not_lt.mpr h ((overstayed_iff _ _ _).mp hb)), if_neg hstate]

/-- A kept row is marked in the round in flight. -/
theorem keepRow_eq {s : State} {r : Round} (hr : s.planner.round = some r) (n : Fin 24) :
    s.keepRow n = { s with
      planner := { s.planner with
        round := some
          { r with rows := r.rows.map (fun y => if y.row.post = n then { y with kept := true } else y) } } } := by
  unfold State.keepRow
  rw [mapRound_eq hr]
  rfl

/-- The reached minute, with the departure ahead read as minutes. -/
theorem reachedAfter_eq (o : Order) (row : Row) (x : RowResult) (now : Nat) :
    reachedAfter o row x now =
      if o.reached = none ∧ x.holding = true ∧ 0 ≤ aheadMinutes now o.departure ∧ o.departure = row.departure ∧
          o.target = row.target then some now
      else o.reached := by
  have hahead : ¬ isBehind now o.departure = true ↔ 0 ≤ aheadMinutes now o.departure := by simp [isBehind]
  exact if_congr (and_congr_right fun _ => and_congr_right fun _ => and_congr_left fun _ => hahead) rfl rfl

/-- The grant a write-back takes, as its conditions hold or one of them fails. -/
theorem takenGrant_eq {s : State} {n : Fin 24} {h : Handle} {decided : OrderState} {lowered taken : Nat}
    (hc : taken = lowered ∧
        (s.bus.posts[n].inService = true ∧ s.bus.posts[n].state = .bound ∧ s.store.table[n] = some h ∧
          s.bus.posts[n].silent = false ∧ s.supply.mode ≠ .shed ∧ (decided = .heating ∨ decided = .holding) ∧
          (∀ cause, .stall n h cause ∉ s.bus.queue) ∧ .unbind n h .vehicleChange ∉ s.bus.queue ∧
          .zeroGrant n h ∉ s.bus.queue) ∨
      taken = 0 ∧
        (s.bus.posts[n].inService = false ∨ s.bus.posts[n].state ≠ .bound ∨ s.store.table[n] ≠ some h ∨
          s.bus.posts[n].silent = true ∨ s.supply.mode = .shed ∨ decided = .waiting ∨
          (∃ cause, .stall n h cause ∈ s.bus.queue) ∨ .unbind n h .vehicleChange ∈ s.bus.queue ∨
          .zeroGrant n h ∈ s.bus.queue)) : s.takenGrant n h decided lowered = taken := by
  rcases hc with ⟨rfl, hall⟩ | ⟨rfl, hfails⟩
  · exact takenGrant_pos hall
  · exact takenGrant_neg hfails

/-- Settles O44: the tests of a row in their order, and the decision written out. -/
theorem writeBackDecides : Obligations.WriteBackDecides := by
  unfold Obligations.WriteBackDecides
  rintro s n r e x _ hf hr he hx rfl
  have hpost : e.row.post = n := by simpa using List.find?_some he
  have hexec : exec .writeBack s = .next (s.completed.writeBackRow r e).releaseIfDone.finish := by
    rw [exec_writeBack hf, writeBack_row (s := s.completed) hr he]
  refine ⟨fun h => ?discarded, fun hstruck hlive hread => ?damaged, fun o hstruck hlive hread => ?order⟩
  case discarded => rw [hexec, writeBackRow_discarded (s := s.completed) h]
  case damaged => rw [hexec, writeBackRow_damaged (s := s.completed) hstruck hlive hread]
  case order =>
    have hrow : s.completed.writeBackRow r e =
        if o.boundPost = some e.row.post then s.completed.decide r e x o else s.completed :=
      writeBackRow_order (s := s.completed) hstruck hlive hread hx
    have hdecides (hb : o.boundPost = some n) :
        exec .writeBack s = .next (s.completed.decide r e x o).releaseIfDone.finish := by
      rw [hexec, hrow, if_pos (hpost ▸ hb)]
    refine ⟨fun hb => ?unbound, fun hb hover => ?overstayed, fun hb hstays hstate => ?stalled,
      fun decided lowered taken hb hstays hstate hdecided hlowered htaken => ?decided⟩
    case unbound => rw [hexec, hrow, if_neg (hpost ▸ hb)]
    case overstayed => rw [hdecides hb, decide_overstayed hover]
    case stalled =>
      rw [hdecides hb, decide_stalled hstays hstate, hpost]
      exact congrArg (fun t => Host.Outcome.next (State.finish (State.releaseIfDone t)))
        (keepRow_eq (s := { s.completed with
          store := s.store.writeOrder e.row.handle.slot { o with estimate := some x.estimate } }) hr n)
    case decided =>
      have htaken : s.takenGrant n e.row.handle x.decides (s.loweredGrant n o x.grant) = taken := by
        have hsame : x.decides = decided := hdecided.symm
        have hlow : s.loweredGrant n o x.grant = lowered := hlowered.symm
        rw [hsame, hlow]
        exact takenGrant_eq htaken
      have hdecision : s.completed.writeDecision e x o r.now = { s.completed with
          store := s.store.writeOrder e.row.handle.slot { o with
            state := decided, estimate := some x.estimate, grant := taken
            short := if lowered < x.grant then lowered < x.estimate.request else x.short
            behind := decided = .heating && x.estimate.slack < 0
            reached :=
              if o.reached = none ∧ x.holding = true ∧ 0 ≤ aheadMinutes r.now o.departure ∧
                  o.departure = e.row.departure ∧ o.target = e.row.target then some r.now
              else o.reached }
          bus := s.bus.modify n (fun p => p.setRecorded taken) } := by
        rw [← reachedAfter_eq, ← htaken, hdecided, hlowered, ← hpost]
        rfl
      rw [hdecides hb, decide_other hstays hstate, hdecision, hpost]
      exact congrArg (fun t => Host.Outcome.next (State.finish (State.releaseIfDone t)))
        (keepRow_eq (r := r) (by exact hr) n)

/-! ### The release -/

/-- A round that still writes back is not released. -/
theorem releaseIfDone_waits {s : State} {r : Round} (hr : s.planner.round = some r) (h : r.phase ≠ .writeBack []) :
    s.releaseIfDone = s := by
  unfold State.releaseIfDone
  rw [hr]
  exact if_neg h

/-- After the last write-back the round is released. -/
theorem releaseIfDone_releases {s : State} {r : Round} (hr : s.planner.round = some r) (h : r.phase = .writeBack []) :
    s.releaseIfDone = s.release r := by
  unfold State.releaseIfDone
  rw [hr]
  exact if_pos h

/-- No SET CLASS is held. -/
theorem applyHeld_none {s : State} (h : ∀ p, s.link.inProgress = some p → p.stage ≠ .held) : s.applyHeld = s := by
  unfold State.applyHeld
  split
  next hp => exact absurd rfl (h _ hp)
  next => rfl

/-- A held SET CLASS is carried out. -/
theorem applyHeld_setClass {s : State} {f : SetClassFields} {tag : Byte} {k : Fin 16}
    (hp : s.link.inProgress = some { request := .setClass f, tag := tag, stage := .held }) (hk : f.cls = k) :
    s.applyHeld = s.applyClass k f := by
  unfold State.applyHeld
  rw [hp]
  dsimp only
  rw [classOf_eq hk]

/-- The posts a release brings a vehicle change, ascending. -/
def Bus.releaseChanged (b : Bus) : List (Fin 24) := allPosts.filter (fun n => b.posts[n].releaseChanges)

/-- The current report of a post at a release. -/
theorem released_current (p : Post) :
    p.released.current =
      { vehicle := p.held.vehicle.getD p.current.vehicle, cabin := p.held.cabin.or p.current.cabin
        outside := p.held.outside.getD p.current.outside } := by
  unfold Post.released Report.merge
  cases p.held.cabin <;> rfl

/-- A post changes its vehicle at a release. -/
theorem mem_releaseChanged {b : Bus} {n : Fin 24} : n ∈ b.releaseChanged ↔
    b.posts[n].state = .bound ∧ b.posts[n].released.current.vehicle ≠ 0 ∧
      b.posts[n].released.current.vehicle ≠ b.posts[n].current.vehicle := by
  unfold Bus.releaseChanged Post.releaseChanges
  rw [List.mem_filter]
  simp [allPosts, and_assoc]

/-- The changed posts ascend. -/
theorem releaseChanged_ascending (b : Bus) : b.releaseChanged.Pairwise (fun x y => x < y) :=
  (List.sortedLT_finRange 24).pairwise.filter _

/-- The engine at a release once its vehicle changes are taken. -/
def Bus.releaseTaken (b : Bus) (table : Vector (Option Handle) 24) : Bus :=
  b.releaseChanged.foldl (fun c n => c.vehicleChange table n) (b.mapPosts Post.released)

/-- The attempts of a release follow the vehicle changes. -/
theorem release_eq (b : Bus) (table : Vector (Option Handle) 24) :
    b.release table = (b.releaseTaken table).trigger (fun _ => true) := rfl

/-- What the vehicle changes of a release leave. -/
theorem releaseTaken_spec (b : Bus) (table : Vector (Option Handle) 24) :
    (∀ n : Fin 24, (b.releaseTaken table).posts[n] =
      if n ∈ b.releaseChanged then { b.posts[n].released.setRecorded 0 with baseline := none }
      else b.posts[n].released) ∧
    (b.releaseTaken table).queue = b.queue ++
      b.releaseChanged.flatMap (fun n => boundAccess table n (fun h => .unbind n h .vehicleChange)) ∧
    (b.releaseTaken table).rotation = b.rotation ∧ (b.releaseTaken table).exchange = b.exchange := by
  have hnodup : b.releaseChanged.Nodup := (List.nodup_finRange 24).filter _
  obtain ⟨hposts, hqueue, hrotation, hexchange⟩ := foldl_vehicleChange table _ hnodup (b.mapPosts Post.released)
  obtain ⟨hr, hx, hq⟩ := mapPosts_keeps b Post.released
  refine ⟨fun n => ?_, ?_, hrotation.trans hr, hexchange.trans hx⟩
  · rw [Bus.releaseTaken, hposts, mapPosts_get]
  · rw [Bus.releaseTaken, hqueue, hq]

/-- No unbind access is an attempt. -/
theorem bind_notMem_unbinds (table : Vector (Option Handle) 24) (n : Fin 24) (l : List (Fin 24)) :
    PostAccess.bind n ∉ l.flatMap (fun m => boundAccess table m (fun h => .unbind m h .vehicleChange)) := by
  intro h
  obtain ⟨m, _, hm⟩ := List.mem_flatMap.mp h
  unfold boundAccess at hm
  cases hh : table[m] <;> simp [hh] at hm

/-- Settles O45: the ranking, the walk, the posts' changes, the attempts, and the held SET CLASS. -/
theorem releaseEffects : Obligations.ReleaseEffects := by
  unfold Obligations.ReleaseEffects
  intro s r hr
  refine ⟨releaseIfDone_waits hr, fun hdone => ?_⟩
  obtain ⟨hposts, hqueue, hrotation, hexchange⟩ := releaseTaken_spec s.bus s.store.table
  obtain ⟨attempts, htrigger, hascending, hattempts⟩ :=
    trigger_spec (s.bus.releaseTaken s.store.table) (fun _ => true)
  have hbus : s.bus.release s.store.table =
      { s.bus.releaseTaken s.store.table with
        queue := (s.bus.releaseTaken s.store.table).queue ++ attempts.map .bind } :=
    (release_eq _ _).trans htrigger
  have hrelease : s.releaseIfDone = State.applyHeld { s with
      planner := { s.planner with ranking := r.survivors, round := none }
      bus := s.bus.release s.store.table
      link := { s.link with walk := s.link.walk.noteReplaced } } := releaseIfDone_releases hr hdone
  refine ⟨_, s.bus.releaseChanged, attempts, fun n => s.bus.posts[n].released.current,
    fun h => hrelease.trans (applyHeld_none h), fun f tag k hp hk => hrelease.trans (applyHeld_setClass hp hk), rfl,
    ?walk, fun n => released_current _, releaseChanged_ascending _, fun n => mem_releaseChanged, ?posts, ?queue,
    hascending, ?attempts, ?rotation, ?exchange, rfl, rfl, rfl, rfl, rfl, rfl, rfl, rfl, rfl⟩
  case walk => cases s.link.walk <;> rfl
  case posts => intro n; dsimp only; rw [hbus]; exact hposts n
  case queue => dsimp only; rw [hbus, hqueue]; rfl
  case attempts =>
    intro n
    dsimp only
    rw [hbus, hattempts, hqueue, List.mem_append]
    have hnot := bind_notMem_unbinds s.store.table n s.bus.releaseChanged
    constructor
    · rintro ⟨_, hq, hrest⟩
      exact ⟨fun h => hq (.inl h), hrest⟩
    · rintro ⟨hq, hrest⟩
      exact ⟨rfl, fun h => h.elim hq hnot, hrest⟩
  case rotation => dsimp only; rw [hbus]; exact hrotation
  case exchange => dsimp only; rw [hbus]; exact hexchange

end Sys2Proof.Machine

/-! PROOF. The completion of an exchange, answered and unanswered. -/

namespace Sys2Proof.Machine

/-! ### Answered exchanges -/

/-- A report that is good completes the exchange as answered. -/
theorem exec_postReply_answered {s : State} {bytes : List Byte} {x : Exchange} {r : ReportFields}
    (hx : s.bus.exchange = some x) (hr : parseReport x.post bytes = some r) :
    exec (.postReply bytes) s = .next (s.answeredBy x r).finish := by
  have hframe : s.postFrame bytes = s.answeredBy x r := by
    unfold State.postFrame
    rw [hx]
    dsimp only
    rw [hr]
  exact congrArg (fun t => Host.Outcome.next (State.finish t)) hframe

/-- The accesses a reply presents of the energy and the condition. -/
def Bus.replyAccesses (b : Bus) (table : Vector (Option Handle) 24) (x : Exchange) (r : ReportFields)
    (cabin : Option Int) : List PostAccess :=
  if b.posts[x.post].state = .bound then
    energyAccess table x.post b.posts[x.post].baseline r.energy ++
      conditionAccess table x.post b.posts[x.post] r cabin
  else []

/-- The record, and then the energy and condition accesses, as one change of the bus. -/
theorem reply_presented (b : Bus) (table : Vector (Option Handle) 24) (x : Exchange) (r : ReportFields)
    (cabin : Option Int) :
    (if b.posts[x.post].state = .bound then
      (b.modify x.post (fun p => p.answered x r)).present
        (energyAccess table x.post b.posts[x.post].baseline r.energy ++
          conditionAccess table x.post b.posts[x.post] r cabin)
    else b.modify x.post (fun p => p.answered x r)) =
      (b.modify x.post (fun p => p.answered x r)).present (b.replyAccesses table x r cabin) := by
  unfold Bus.replyAccesses
  split
  · rfl
  · simp [Bus.present]

/-- A vehicle change after a reply. -/
theorem afterReport_change {b : Bus} {table : Vector (Option Handle) 24} {n : Fin 24} {silentEnded : Bool}
    (hbound : b.posts[n].state = .bound) :
    b.afterReport table n true silentEnded = b.vehicleChange table n := by
  unfold Bus.afterReport
  exact if_pos (by simpa using hbound)

/-- The attempt after a reply that brings no vehicle change to a BOUND post. -/
theorem afterReport_attempt {b : Bus} {table : Vector (Option Handle) 24} {n : Fin 24} {change silentEnded : Bool}
    (h : change = false ∨ b.posts[n].state ≠ .bound) :
    b.afterReport table n change silentEnded = { b with
      queue := b.queue ++
        if (change || silentEnded) = true ∧ b.posts[n].qualifies = true ∧ .bind n ∉ b.queue then [.bind n] else [] } := by
  unfold Bus.afterReport
  rw [if_neg (by rcases h with h | h <;> simp_all), trigger_one]

/-- A vehicle change of a post whose record and accesses were just given. -/
theorem vehicleChange_modified (b : Bus) (table : Vector (Option Handle) 24) (n : Fin 24) (f : Post → Post)
    (l : List PostAccess) :
    ((b.modify n f).present l).vehicleChange table n = { b with
      posts := b.posts.set n { (f b.posts[n]).setRecorded 0 with baseline := none }
      queue := b.queue ++ l ++ boundAccess table n (fun h => .unbind n h .vehicleChange) } := by
  unfold Bus.vehicleChange Bus.present Bus.modify
  dsimp only
  rw [vector_set_eq, Vector.set_set]

/-- An answered exchange that brings a vehicle change to a BOUND post. -/
theorem answeredIn_change {b : Bus} {table : Vector (Option Handle) 24} {x : Exchange} {r : ReportFields} {a : Post}
    {vehicle : Nat} {cabin : Option Int} (hv : carriedVehicle x b.posts[x.post] r = vehicle)
    (hc : carriedCabin x b.posts[x.post] r = cabin) (ha : b.posts[x.post].answered x r = a) (hstate : a.state = .bound)
    (hchange : newVehicleCurrent b.posts[x.post] vehicle = true) :
    b.answeredIn table x r = { b with
      posts := b.posts.set x.post { a.setRecorded 0 with baseline := none }
      queue := b.queue ++ b.replyAccesses table x r cabin ++
        boundAccess table x.post (fun h => .unbind x.post h .vehicleChange) } := by
  have hbound : ((b.modify x.post (fun p => p.answered x r)).present
      (b.replyAccesses table x r cabin)).posts[x.post].state = .bound := by
    show ((b.modify x.post (fun p => p.answered x r)).posts[x.post]).state = .bound
    rw [modify_posts, vector_set_eq, ha, hstate]
  unfold Bus.answeredIn
  dsimp only
  rw [hv, hc, reply_presented, hchange, afterReport_change hbound, vehicleChange_modified, ha]

/-- Any other answered exchange with an in-service post. -/
theorem answeredIn_other {b : Bus} {table : Vector (Option Handle) 24} {x : Exchange} {r : ReportFields} {a : Post}
    {vehicle : Nat} {cabin : Option Int} (hv : carriedVehicle x b.posts[x.post] r = vehicle)
    (hc : carriedCabin x b.posts[x.post] r = cabin) (ha : b.posts[x.post].answered x r = a)
    (h : newVehicleCurrent b.posts[x.post] vehicle = false ∨ a.state ≠ .bound) :
    b.answeredIn table x r = { b with
      posts := b.posts.set x.post a
      queue := b.queue ++ b.replyAccesses table x r cabin ++
        if (newVehicleCurrent b.posts[x.post] vehicle || b.posts[x.post].silent) = true ∧ a.qualifies = true ∧
          .bind x.post ∉ b.queue ++ b.replyAccesses table x r cabin then [.bind x.post] else [] } := by
  have hpost : ((b.modify x.post (fun p => p.answered x r)).present
      (b.replyAccesses table x r cabin)).posts[x.post] = a := by
    show (b.modify x.post (fun p => p.answered x r)).posts[x.post] = a
    rw [modify_posts, vector_set_eq, ha]
  unfold Bus.answeredIn
  dsimp only
  rw [hv, hc, reply_presented, afterReport_attempt (hpost ▸ h), hpost]
  unfold Bus.present Bus.modify
  dsimp only
  rw [ha]

/-- The energy access of a BOUND post. -/
theorem energyAccess_bound {table : Vector (Option Handle) 24} {n : Fin 24} {h : Handle} (hn : table[n] = some h)
    (baseline : Option Nat) (counter : Nat) :
    energyAccess table n baseline counter =
      (match baseline with
      | some b =>
        if (counter + 65536 - b) % 65536 ≤ 1000 then [.addEnergy n h ((counter + 65536 - b) % 65536)] else []
      | none => []) := by
  unfold energyAccess boundAccess
  rw [hn]
  cases baseline <;> rfl

/-- The condition access of a BOUND post. -/
theorem conditionAccess_bound {table : Vector (Option Handle) 24} {n : Fin 24} {h : Handle} (hn : table[n] = some h)
    (p : Post) (r : ReportFields) (cabin : Option Int) :
    conditionAccess table n p r cabin =
      if r.heater = .fault then [.stall n h .heaterFault]
      else if cabin ≠ none then [.recover n h]
      else if p.age = 2 then [.stall n h .staleReading] else [] := by
  unfold conditionAccess replyStall ageSteps boundAccess
  rw [hn]
  by_cases hfault : r.heater = .fault
  · rw [if_pos hfault, if_pos hfault]
    rfl
  · rw [if_neg hfault, if_neg hfault]
    cases cabin with
    | some t => simp
    | none => by_cases hage : p.age = 2 <;> simp [hage]

/-- A call code other than NONE sets CALL at an in-service post. -/
theorem noteCall_inService (a : Attention) (n : Fin 24) (call : CallCode) :
    a.noteCall n true call =
      if call = .none then a else { a with posts := a.posts.set n { a.posts[n] with call := true } } := by
  cases call <;> rfl

/-- A reply makes a vehicle number current. -/
theorem newVehicleCurrent_iff (p : Post) (vehicle : Nat) : newVehicleCurrent p vehicle = true ↔
    p.roundMark = false ∧ vehicle ≠ 0 ∧ vehicle ≠ p.current.vehicle := by
  simp [newVehicleCurrent, and_assoc]

/-- An in-service post that answers qualifies for an attempt when it is OCCUPIED with a vehicle. -/
theorem qualifies_answering {p : Post} (hin : p.inService = true) (hsilent : p.silent = false) :
    p.qualifies = true ↔ p.state = .occupied ∧ p.current.vehicle ≠ 0 := by
  simp [Post.qualifies, hin, hsilent]

/-- The post record a reply gives before a vehicle change, from what it carries. -/
def Post.replied (p : Post) (x : Exchange) (r : ReportFields) (vehicle : Nat) (cabin : Option Int) : Post :=
  { p with
    sent := if x.level = none then p.sent else some (r.applied * 100)
    claim := p.claim || x.level.any (fun l => p.recorded < l * 100 && p.recorded < r.applied * 100)
    current :=
      if p.roundMark then p.current
      else
        { vehicle := if vehicle = 0 then p.current.vehicle else vehicle, cabin := cabin.or p.current.cabin
          outside := r.outside }
    held :=
      if p.roundMark then
        { vehicle := if vehicle = 0 then p.held.vehicle else some vehicle, cabin := cabin.or p.held.cabin
          outside := some r.outside }
      else p.held
    heaterState := some r.heater
    age := if cabin = none then min 3 (p.age + 1) else 0
    silence := 0, silent := false
    lastCall := if r.call = .none then p.lastCall else r.call
    baseline := if p.state = .bound then some r.energy else p.baseline }

/-- The post record an answered exchange leaves. -/
def Post.afterReply (p q : Post) (r : ReportFields) (cabin : Option Int) (changed : Bool) : Post :=
  if p.state = .bound ∧ changed = true then { q.setRecorded 0 with baseline := none }
  else if p.state = .bound ∧ (r.heater = .fault ∨ p.age = 2 ∧ cabin = none) then q.setRecorded 0
  else q

/-- The accesses a reply presents of the vehicle it names: the unbind of a vehicle change, or an attempt. -/
def Bus.namingAccesses (b : Bus) (table : Vector (Option Handle) 24) (n : Fin 24) (p q : Post) (changed : Bool) :
    List PostAccess :=
  if p.state = .bound then (if changed then boundAccess table n (fun h => .unbind n h .vehicleChange) else [])
  else if p.state = .occupied ∧ q.current.vehicle ≠ 0 ∧ (changed = true ∨ p.silent = true) ∧ .bind n ∉ b.queue then
    [.bind n]
  else []

/-- A vehicle change at a BOUND post zeroes the grant and the baseline. -/
theorem afterReply_change {p q : Post} {r : ReportFields} {cabin : Option Int} (hbound : p.state = .bound) :
    p.afterReply q r cabin true = { q.setRecorded 0 with baseline := none } := if_pos ⟨hbound, rfl⟩

/-- A reply without a vehicle change leaves the record, with the grant zeroed by a stall at a BOUND post. -/
theorem afterReply_unchanged (p q : Post) (r : ReportFields) (cabin : Option Int) :
    p.afterReply q r cabin false =
      if p.state = .bound ∧ (r.heater = .fault ∨ p.age = 2 ∧ cabin = none) then q.setRecorded 0 else q :=
  if_neg (fun h => nomatch h.2)

/-- The record of a post that is not BOUND stands as replied. -/
theorem afterReply_notBound {p q : Post} {r : ReportFields} {cabin : Option Int} {changed : Bool}
    (hnot : p.state ≠ .bound) : p.afterReply q r cabin changed = q := by
  unfold Post.afterReply
  rw [if_neg (fun h => hnot h.1), if_neg (fun h => hnot h.1)]

/-- A BOUND post qualifies for no attempt. -/
theorem not_qualifies_bound {p : Post} (hbound : p.state = .bound) : ¬ p.qualifies = true := by
  unfold Post.qualifies
  rw [hbound]
  simp

/-- What an answered exchange makes of the bus, with the post's record and its accesses in their order. -/
theorem answered_inService {b : Bus} {table : Vector (Option Handle) 24} {x : Exchange} {r : ReportFields} {p : Post}
    {vehicle : Nat} {cabin : Option Int} {changed : Bool} (hp : p = b.posts[x.post]) (hin : p.inService = true)
    (hv : carriedVehicle x p r = vehicle) (hc : carriedCabin x p r = cabin)
    (hchanged : changed = newVehicleCurrent p vehicle) :
    b.answered table x r = { b with
      posts := b.posts.set x.post (p.afterReply (p.replied x r vehicle cabin) r cabin changed)
      queue := b.queue ++ b.replyAccesses table x r cabin ++
        b.namingAccesses table x.post p (p.replied x r vehicle cabin) changed } := by
  subst hp hchanged
  have ha := answered_eq (q0 := b.posts[x.post].replied x r vehicle cabin) hin hv hc rfl
  unfold Bus.answered Bus.namingAccesses
  rw [if_pos hin]
  by_cases hbound : b.posts[x.post].state = .bound
  · have hstate : (b.posts[x.post].answered x r).state = .bound := by
      rw [ha]
      split <;> exact hbound
    cases hch : newVehicleCurrent b.posts[x.post] vehicle with
    | true =>
      have hgrant : (b.posts[x.post].answered x r).setRecorded 0 =
          (b.posts[x.post].replied x r vehicle cabin).setRecorded 0 := by
        rw [ha]
        split
        · exact setRecorded_zero_idem _
        · rfl
      rw [answeredIn_change hv hc rfl hstate hch, hgrant, afterReply_change hbound, if_pos hbound, if_pos rfl]
    | false =>
      have hnone : ¬ ((newVehicleCurrent b.posts[x.post] vehicle || b.posts[x.post].silent) = true ∧
          (b.posts[x.post].answered x r).qualifies = true ∧
          .bind x.post ∉ b.queue ++ b.replyAccesses table x r cabin) := fun h => not_qualifies_bound hstate h.2.1
      rw [answeredIn_other hv hc rfl (.inl hch), if_neg hnone, ha, afterReply_unchanged, if_pos hbound]
      rfl
  · have hplain : b.posts[x.post].answered x r = b.posts[x.post].replied x r vehicle cabin := by
      rw [ha, if_neg (fun h => hbound h.1)]
    have hnone : b.replyAccesses table x r cabin = [] := if_neg hbound
    have hattempt : ((newVehicleCurrent b.posts[x.post] vehicle || b.posts[x.post].silent) = true ∧
        (b.posts[x.post].replied x r vehicle cabin).qualifies = true ∧ .bind x.post ∉ b.queue) ↔
        (b.posts[x.post].state = .occupied ∧ (b.posts[x.post].replied x r vehicle cabin).current.vehicle ≠ 0 ∧
          (newVehicleCurrent b.posts[x.post] vehicle = true ∨ b.posts[x.post].silent = true) ∧
          .bind x.post ∉ b.queue) := by
      rw [qualifies_answering (p := b.posts[x.post].replied x r vehicle cabin) hin rfl, Bool.or_eq_true]
      show _ ∧ (b.posts[x.post].state = .occupied ∧ _) ∧ _ ↔ _
      tauto
    rw [answeredIn_other hv hc hplain (.inr hbound), afterReply_notBound hbound, hnone, List.append_nil,
      if_congr hattempt rfl rfl, if_neg hbound]

/-- Settles O48: the record, its accesses and the attention of an answered exchange. -/
theorem answeredExchange : Obligations.AnsweredExchange := by
  unfold Obligations.AnsweredExchange
  rintro s bytes x r p vehicle cabin hx hr hp hin hcarried
  obtain ⟨hv, hc⟩ := carried_eq hcarried
  obtain ⟨changed, hchanged⟩ : ∃ changed, changed = newVehicleCurrent p vehicle := ⟨_, rfl⟩
  have hbus := answered_inService (table := s.store.table) hp hin hv hc hchanged
  refine ⟨s.answeredBy x r, p.replied x r vehicle cabin, p.afterReply (p.replied x r vehicle cabin) r cabin changed,
    changed, if p.state = .bound then energyAccess s.store.table x.post p.baseline r.energy else [],
    if p.state = .bound then conditionAccess s.store.table x.post p r cabin else [],
    s.bus.namingAccesses s.store.table x.post p (p.replied x r vehicle cabin) changed,
    exec_postReply_answered hx hr, rfl, hchanged ▸ newVehicleCurrent_iff p vehicle, fun hbound hch => ?change,
    fun hbound hch hstall => ?stall, fun hplain => ?plain, fun h hbound hn => ?bound, fun hnot => ?unbound,
    fun _ => ?state⟩
  case change => rw [hch, afterReply_change hbound]
  case stall => rw [hch, afterReply_unchanged, if_pos ⟨hbound, hstall⟩]
  case plain =>
    rcases hplain with hnot | ⟨hch, hheater, hage⟩
    · exact afterReply_notBound hnot
    · rw [hch, afterReply_unchanged, if_neg (fun h => h.2.elim hheater hage)]
  case bound =>
    have hnaming : s.bus.namingAccesses s.store.table x.post p (p.replied x r vehicle cabin) changed =
        if changed then [.unbind x.post h .vehicleChange] else [] := by
      unfold Bus.namingAccesses boundAccess
      rw [if_pos hbound, hn]
      rfl
    rw [if_pos hbound, if_pos hbound]
    exact ⟨energyAccess_bound hn _ _, conditionAccess_bound hn _ _ _, hnaming⟩
  case unbound =>
    rw [if_neg hnot, if_neg hnot, afterReply_notBound hnot]
    exact ⟨rfl, rfl, if_neg hnot⟩
  case state =>
    have haccesses : s.bus.replyAccesses s.store.table x r cabin =
        (if p.state = .bound then energyAccess s.store.table x.post p.baseline r.energy else []) ++
          (if p.state = .bound then conditionAccess s.store.table x.post p r cabin else []) := by
      unfold Bus.replyAccesses
      rw [← hp]
      split <;> rfl
    unfold State.answeredBy Bus.endExchange
    rw [hbus, haccesses, ← hp, hin, noteCall_inService]

end Sys2Proof.Machine

/-! PROOF. The unanswered exchange, and the reply of an OUT post. -/

namespace Sys2Proof.Machine

/-- A timeout, or a reply that is no report, completes the exchange as unanswered. -/
theorem exec_unanswered {s : State} {c : Instr} {x : Exchange} (hx : s.bus.exchange = some x)
    (hc : c = .replyTimeout ∨ ∃ bytes, c = .postReply bytes ∧ parseReport x.post bytes = none) :
    exec c s = .next (s.unansweredExchange x).finish := by
  rcases hc with rfl | ⟨bytes, rfl, hnone⟩
  · have htimes : s.replyTimesOut = s.unansweredExchange x := by
      unfold State.replyTimesOut
      rw [hx]
    exact congrArg (fun t => Host.Outcome.next (State.finish t)) htimes
  · have hframe : s.postFrame bytes = s.unansweredExchange x := by
      unfold State.postFrame
      rw [hx]
      dsimp only
      rw [hnone]
    exact congrArg (fun t => Host.Outcome.next (State.finish t)) hframe

/-- An unanswered exchange with an OUT post changes its sent grant alone. -/
theorem unanswered_out {b : Bus} {table : Vector (Option Handle) 24} {x : Exchange}
    (hout : b.posts[x.post].inService = false) :
    (b.unanswered table x).endExchange = { b with
      posts := b.posts.set x.post (b.posts[x.post].sentUnanswered x.level), exchange := none } := by
  unfold Bus.unanswered
  dsimp only
  rw [if_neg (ne_true_of_eq_false hout)]
  rfl

/-- An unanswered exchange with an in-service post changes its record and presents its stalls. -/
theorem unanswered_in {b : Bus} {table : Vector (Option Handle) 24} {x : Exchange}
    (hin : b.posts[x.post].inService = true) :
    (b.unanswered table x).endExchange = { b with
      posts := b.posts.set x.post (b.posts[x.post].unanswered x)
      exchange := none
      queue := b.queue ++
        if b.posts[x.post].state = .bound then
          (unansweredStalls b.posts[x.post]).flatMap
            (fun cause => boundAccess table x.post (fun h => .stall x.post h cause))
        else [] } := by
  unfold Bus.unanswered
  dsimp only
  rw [if_pos hin]
  rfl

/-- The stalls of a BOUND post, age before silence. -/
theorem unansweredStalls_bound {table : Vector (Option Handle) 24} {n : Fin 24} {h : Handle} (hn : table[n] = some h)
    (p : Post) :
    (unansweredStalls p).flatMap (fun cause => boundAccess table n (fun h => .stall n h cause)) =
      (if p.age = 2 then [.stall n h .staleReading] else []) ++
        (if p.silence = 3 then [.stall n h .postSilent] else []) := by
  have hone : ∀ cause, boundAccess table n (fun h => .stall n h cause) = [.stall n h cause] := by
    intro cause
    unfold boundAccess
    rw [hn]
    rfl
  unfold unansweredStalls ageSteps
  by_cases hage : p.age = 2 <;> by_cases hsilence : p.silence = 3 <;> simp [hage, hsilence, hone]

/-- The record of an in-service post after an unanswered exchange. -/
theorem unanswered_eq (p : Post) (x : Exchange) :
    p.unanswered x =
      if p.silence = 3 ∨ p.state = .bound ∧ p.age = 2 then
        Post.setRecorded { p.sentUnanswered x.level with
          age := min 3 (p.age + 1), silence := min 4 (p.silence + 1)
          silent := if p.silence = 3 then true else p.silent } 0
      else { p.sentUnanswered x.level with
        age := min 3 (p.age + 1), silence := min 4 (p.silence + 1)
        silent := if p.silence = 3 then true else p.silent } := by
  have hsilent : (p.silent || decide (p.silence = 3)) = if p.silence = 3 then true else p.silent := by
    by_cases h : p.silence = 3 <;> simp [h]
  have hcond : (p.silence = 3 ∨ p.state = .bound ∧ ageSteps p.age none = true) ↔
      (p.silence = 3 ∨ p.state = .bound ∧ p.age = 2) := by simp [ageSteps]
  unfold Post.unanswered
  dsimp only
  rw [hsilent, if_congr hcond rfl rfl]
  rfl

/-- The reply of an OUT post. -/
theorem exec_postReply_out {s : State} {bytes : List Byte} {x : Exchange} {r : ReportFields}
    (hx : s.bus.exchange = some x) (hr : parseReport x.post bytes = some r)
    (hout : s.bus.posts[x.post].inService = false) :
    exec (.postReply bytes) s = .next (State.finish { s with
      bus := { s.bus with
        posts := s.bus.posts.set x.post (s.bus.posts[x.post].answeredOut x r), exchange := none } }) := by
  have hbus : (s.bus.answered s.store.table x r).endExchange = { s.bus with
      posts := s.bus.posts.set x.post (s.bus.posts[x.post].answeredOut x r), exchange := none } := by
    unfold Bus.answered
    rw [if_neg (ne_true_of_eq_false hout)]
    rfl
  rw [exec_postReply_answered hx hr]
  unfold State.answeredBy
  rw [hbus, hout]
  rfl

/-- The record of an OUT post after a POLL it answers. -/
theorem answeredOut_poll {p : Post} {x : Exchange} {r : ReportFields} (hlevel : x.level = none) :
    p.answeredOut x r = p := by
  unfold Post.answeredOut Post.sentAnswered
  rw [hlevel]
  simp

/-- The record of an OUT post after a SETPOINT it answers. -/
theorem answeredOut_setpoint {p : Post} {x : Exchange} {r : ReportFields} {l : Nat} (hlevel : x.level = some l)
    (hout : p.inService = false) :
    p.answeredOut x r = { p with
      sent := some (r.applied * 100)
      finalOwed := (p.finalOwed || (p.recorded < l * 100 && p.recorded < r.applied * 100)) && r.applied ≠ 0 } := by
  unfold Post.answeredOut Post.sentAnswered Post.withSent overshoots
  rw [hlevel, hout]
  simp

/-- With no exchange in flight a frame on the post bus is discarded. -/
theorem exec_noExchange {s : State} (bytes : List Byte) (hx : s.bus.exchange = none) :
    exec (.postReply bytes) s = .next s.finish ∧ exec .replyTimeout s = .next s.finish := by
  have hframe : s.postFrame bytes = s := by
    unfold State.postFrame
    rw [hx]
  have htimes : s.replyTimesOut = s := by
    unfold State.replyTimesOut
    rw [hx]
  exact ⟨congrArg (fun t => Host.Outcome.next (State.finish t)) hframe,
    congrArg (fun t => Host.Outcome.next (State.finish t)) htimes⟩

/-- Settles O49: the unanswered exchange, the reply of an OUT post, and no exchange. -/
theorem unansweredExchange : Obligations.UnansweredExchange := by
  unfold Obligations.UnansweredExchange
  refine ⟨?unanswered, fun s bytes => ⟨?out, exec_noExchange bytes⟩⟩
  case unanswered =>
    rintro s c x _ hx rfl hc
    refine ⟨_, s.bus.posts[x.post].sentUnanswered x.level, rfl, sentUnanswered_eq _ _, fun hout => ?outPost,
      fun q1 q stalls hin hq1 hq hstalls => ?inPost⟩
    case outPost =>
      rw [exec_unanswered hx hc]
      unfold State.unansweredExchange
      rw [unanswered_out hout]
    case inPost =>
      have hrecord : s.bus.posts[x.post].unanswered x = q := by
        rw [unanswered_eq, hq, hq1]
      have hpresents : (if s.bus.posts[x.post].state = .bound then
          (unansweredStalls s.bus.posts[x.post]).flatMap
            (fun cause => boundAccess s.store.table x.post (fun h => .stall x.post h cause))
          else []) = stalls := by
        rcases hstalls with ⟨hnot, rfl⟩ | ⟨h, hbound, hn, rfl⟩
        · exact if_neg hnot
        · rw [if_pos hbound, unansweredStalls_bound hn]
      rw [exec_unanswered hx hc]
      unfold State.unansweredExchange
      rw [unanswered_in hin, hrecord, hpresents]
  case out =>
    rintro x r _ hx hr rfl hout
    rw [exec_postReply_out hx hr hout]
    cases hlevel : x.level with
    | none => rw [answeredOut_poll hlevel]
    | some l => rw [answeredOut_setpoint hlevel hout]

end Sys2Proof.Machine

/-! PROOF. The headroom, the measured power and the sent total; deliverable levels. -/

namespace Sys2Proof.Machine

/-! ### Headroom -/

/-- The mode limit as an integer. -/
theorem modeLimit_cast (mode : SiteMode) (x : SiteSettings) :
    ((modeLimit mode x : Nat) : Int) =
      match mode with
      | .normal => (x.siteLimit : Int) * 1000
      | .limited => min (x.limitedLevel : Int) x.siteLimit * 1000
      | .restoring => min (x.limitedLevel : Int) x.siteLimit * 1000
      | .shed => 0 := by
  cases mode <;> simp [modeLimit]

/-- The conditioning ceiling as an integer. -/
theorem conditioningCeiling_cast (autonomy : Bool) (x : SiteSettings) :
    ((conditioningCeiling autonomy x : Nat) : Int) =
      if autonomy then min (x.ceiling : Int) x.autoCeiling * 1000 else (x.ceiling : Int) * 1000 := by
  cases autonomy <;> simp [conditioningCeiling]

/-- The other load as an integer. -/
theorem otherLoad_cast (power sent : Nat) :
    ((power - sent : Nat) : Int) = if (sent : Int) < power then (power : Int) - sent else 0 := by
  split <;> omega

/-- A reading's power over the time it took, taken as at least one second. -/
theorem measuredPower_spec (n k t : Nat) :
    measuredPower n k t * max 1 t ≤ n * k * 3600 ∧ n * k * 3600 < (measuredPower n k t + 1) * max 1 t := by
  have hseconds : (if t = 0 then 1 else t) = max 1 t := by split <;> omega
  have hpos : 0 < max 1 t := by omega
  unfold measuredPower
  rw [hseconds]
  exact ⟨Nat.div_mul_le_self _ _, Nat.lt_mul_of_div_lt (Nat.lt_succ_self _) hpos⟩

/-- A search that finds no row of a post has met none. -/
theorem find_post_none {rows : List RowEntry} {n : Fin 24} (h : rows.find? (fun e => e.row.post = n) = none) :
    ∀ e ∈ rows, e.row.post ≠ n := fun e he => by simpa using List.find?_eq_none.mp h e he

/-- Settles O53: the headroom, the measured power, and the sent total. -/
theorem headroomRule : Obligations.HeadroomRule := by
  unfold Obligations.HeadroomRule
  refine ⟨fun mode autonomy x power sent lm cc po hlm hcc hpo => ?headroom, measuredPower_spec, fun s => rfl,
    fun b rows w hknown hrow hnone => ?total⟩
  case headroom =>
    have hlm : lm = (modeLimit mode x : Nat) := hlm.trans (modeLimit_cast mode x).symm
    have hcc := hcc.trans (conditioningCeiling_cast autonomy x).symm
    have hpo := hpo.trans (otherLoad_cast power sent).symm
    subst hlm hcc hpo
    unfold headroom
    constructor
    · rw [if_neg nofun]
      omega
    · rw [if_pos rfl]
      split <;> omega
  case total =>
    unfold sentTotal
    refine congrArg List.sum (List.map_congr_left fun n _ => ?_)
    unfold sentContribution
    cases hsent : b.posts[n].sent with
    | some g => exact (hknown n g hsent).symm
    | none =>
      cases hfind : rows.find? (fun e => e.row.post = n) with
      | some e => exact (hrow n e hsent hfind).symm
      | none => exact (hnone n hsent (find_post_none hfind)).symm

/-! ### Deliverable levels -/

/-- The effective maximum and minimum of a class at a post, with what its parameters and feed limit give. -/
theorem heaterLimits_spec {c : ClassParams} {heater : Heater} {feed : Nat} (hpmax : 500 ≤ c.pmax) (hfeed : 1000 ≤ feed) :
    let l := heaterLimits c heater feed
    l.heater = heater ∧ l.pmaxEff % 100 = 0 ∧ l.pmaxEff ≤ min c.pmax feed ∧ min c.pmax feed < l.pmaxEff + 100 ∧
      500 ≤ l.pmaxEff ∧ l.pminEff = min ((c.pmin + 99) / 100 * 100) l.pmaxEff := by
  have hfloor : (heaterLimits c heater feed).pmaxEff = min c.pmax feed / 100 * 100 := rfl
  refine ⟨rfl, ?_, ?_, ?_, ?_, rfl⟩ <;> rw [hfloor] <;> omega

/-- Settles O55: the levels, the request and the lowered grant of each heater interface. -/
theorem deliverableLevels : Obligations.DeliverableLevels := by
  unfold Obligations.DeliverableLevels
  intro c heater feed l hl hpmax hfeed
  obtain ⟨hheater, hmod, hle, hlt, hpos, hmin⟩ := heaterLimits_spec (heater := heater) hpmax hfeed
  rw [← hl] at hheater hmod hle hlt hpos hmin
  refine ⟨⟨hmod, hle, hlt⟩, ⟨rfl, ?lowest⟩, fun w => ?levels, rfl, fun raw hraw => ?request, fun w => ?lower⟩
  case lowest =>
    unfold HeaterLimits.lowest
    rw [hheater]
    cases heater with
    | continuous => dsimp only; rw [hmin]
    | stepped => rfl
    | switched => rfl
  case levels =>
    rw [deliverable_iff, hheater]
    cases heater with
    | continuous => dsimp only; omega
    | stepped => exact Iff.rfl
    | switched => exact Iff.rfl
  case request =>
    simp only [deliverable_iff, request_eq l raw hraw, hheater]
    cases heater with
    | continuous =>
      dsimp only
      refine ⟨by omega, by omega, by omega, by omega, fun _ w hw hpos hreach => by omega, nofun, nofun⟩
    | stepped =>
      dsimp only
      refine ⟨by split <;> omega, by split <;> omega, by split <;> omega, by split <;> omega, nofun,
        fun _ => by split <;> omega, nofun⟩
    | switched =>
      dsimp only
      exact ⟨.inr rfl, by omega, le_refl _, by omega, nofun, nofun, fun _ => rfl⟩
  case lower =>
    simp only [deliverable_iff, lower_eq, hheater]
    cases heater with
    | continuous =>
      dsimp only
      refine ⟨by split <;> omega, by split <;> omega, fun x hx hxw => by split <;> omega⟩
    | stepped =>
      dsimp only
      refine ⟨by split_ifs <;> omega, by split_ifs <;> omega,
        fun x hx hxw => by split_ifs <;> omega⟩
    | switched =>
      dsimp only
      refine ⟨by split <;> omega, by split <;> omega, fun x hx hxw => by split <;> omega⟩

end Sys2Proof.Machine

/-! PROOF. The stages of the thermal estimate. -/

namespace Sys2Proof.Machine

/-- A division by 10 rounded up, of a product with a difference that counts as 0 below. -/
theorem tenths_spec (k : Nat) (x : Int) :
    (k : Int) * max 0 x ≤ 10 * (ceilDiv (k * x.toNat) 10 : Nat) ∧
      10 * ((ceilDiv (k * x.toNat) 10 : Nat) : Int) < (k : Int) * max 0 x + 10 := by
  have hprod : ((k * x.toNat : Nat) : Int) = (k : Int) * max 0 x := by rw [Nat.cast_mul, toNat_eq_max]
  obtain ⟨hlow, hhigh⟩ := ceilDiv_spec (k * x.toNat) 10 (by omega)
  omega

/-- The outside temperature used. -/
theorem outsideUsed_eq (r : Row) (fallback : Int) :
    r.outsideUsed fallback = match r.report.outside with | some t => t | none => fallback := by
  unfold Row.outsideUsed
  cases r.report.outside <;> rfl

/-- The cabin temperature used. -/
theorem cabinUsed_eq (r : Row) (fallback : Int) :
    r.cabinUsed fallback =
      match r.report.cabin with
      | some t => if r.age < 3 then t else r.outsideUsed fallback
      | none => r.outsideUsed fallback := by
  unfold Row.cabinUsed Row.cabinUsable
  cases r.report.cabin with
  | none => split <;> rfl
  | some t => dsimp only; split <;> rfl

/-- Nothing to lift takes no time. -/
theorem timeToTarget_idle {r : Row} {fallback : Int} (h : r.liftEnergy fallback = 0) :
    r.timeToTarget fallback = 0 ∧ r.unreachable fallback = false :=
  ⟨if_pos h, by simp [Row.unreachable, h]⟩

/-- A lift without net heat is UNREACHABLE. -/
theorem timeToTarget_unreachable {r : Row} {fallback : Int} (h : 0 < r.liftEnergy fallback)
    (hheat : r.fullHeat ≤ r.lossPower fallback) :
    r.timeToTarget fallback = 65535 ∧ r.unreachable fallback = true := by
  refine ⟨?_, by simp [Row.unreachable, hheat]; omega⟩
  unfold Row.timeToTarget
  rw [if_neg (by omega), if_pos hheat]

/-- A lift with net heat takes the energy over that heat, rounded up and held in its range. -/
theorem timeToTarget_reachable {r : Row} {fallback : Int} (h : 0 < r.liftEnergy fallback)
    (hheat : r.lossPower fallback < r.fullHeat) :
    r.unreachable fallback = false ∧ ∃ t, r.timeToTarget fallback = min 65535 t ∧
      1000 * r.liftEnergy fallback ≤ t * (r.fullHeat - r.lossPower fallback) ∧
      t * (r.fullHeat - r.lossPower fallback) <
        1000 * r.liftEnergy fallback + (r.fullHeat - r.lossPower fallback) := by
  refine ⟨by simp [Row.unreachable, hheat], ceilDiv (r.liftEnergy fallback * 1000) (r.fullHeat - r.lossPower fallback),
    ?_, ?_⟩
  · unfold Row.timeToTarget
    rw [if_neg (by omega), if_neg (by omega)]
  · rw [Nat.mul_comm 1000]
    exact ceilDiv_spec _ _ (by omega)

/-- The lead in minutes, rounded up. -/
theorem lead_spec (r : Row) (fallback : Int) :
    r.timeToTarget fallback + 60 * r.params.m ≤ 60 * r.lead fallback ∧
      60 * r.lead fallback < r.timeToTarget fallback + 60 * r.params.m + 60 := by
  obtain ⟨hlow, hhigh⟩ := ceilDiv_spec (r.timeToTarget fallback) 60 (by omega)
  unfold Row.lead
  omega

/-- The latest start is the minute-of-week that lies the lead before the departure. -/
theorem latestStart_spec (r : Row) (fallback : Int) :
    r.latestStart fallback < 10080 ∧ (r.latestStart fallback + r.lead fallback) % 10080 = r.departure % 10080 := by
  unfold Row.latestStart
  generalize r.lead fallback = lead
  have hweek : ((Config.weekMinutes : Nat) : Int) = 10080 := rfl
  rw [hweek]
  omega

/-- A row is eligible within the start lead, unless a live earliest start stands in its way. -/
theorem eligible_iff (r : Row) (now startLead : Nat) (fallback : Int) :
    r.eligible now startLead fallback = true ↔
      r.slack now fallback ≤ startLead ∧ ∀ t, r.earliest = some t →
        aheadMinutes now t ≤ 0 ∨ aheadMinutes now r.departure < aheadMinutes now t := by
  unfold Row.eligible earliestAllows liesAfter
  cases r.earliest <;> simp

/-- The holding test, over a fresh cabin reading. -/
theorem holding_iff (r : Row) :
    r.holding = true ↔ r.age < 3 ∧ ∃ t, r.report.cabin = some t ∧
      (r.target ≤ t ∨ r.state = .holding ∧ r.target - 10 ≤ t) := by
  unfold Row.holding Row.cabinUsable
  by_cases hage : r.age < 3
  · rw [if_pos (show r.age < Config.ageMax from hage)]
    cases r.report.cabin <;> simp [hage]
  · rw [if_neg (show ¬ r.age < Config.ageMax from hage)]
    simp [hage]

/-- The raw request of a holding row. -/
theorem rawRequest_holding {r : Row} {now startLead : Nat} {fallback : Int} (h : r.holding = true) :
    r.rawRequest now startLead fallback = r.holdPower fallback := if_pos h

/-- The raw request of an eligible row with nothing to lift. -/
theorem rawRequest_idle {r : Row} {now startLead : Nat} {fallback : Int} (h : r.holding = false)
    (he : r.eligible now startLead fallback = true) (hl : r.liftEnergy fallback = 0) :
    r.rawRequest now startLead fallback = r.holdPower fallback := by
  unfold Row.rawRequest
  rw [if_neg (ne_true_of_eq_false h), if_pos he, if_pos hl]

/-- The raw request of a row that is neither holding nor eligible. -/
theorem rawRequest_none {r : Row} {now startLead : Nat} {fallback : Int} (h : r.holding = false)
    (he : r.eligible now startLead fallback = false) : r.rawRequest now startLead fallback = 0 := by
  unfold Row.rawRequest
  rw [if_neg (ne_true_of_eq_false h), if_neg (ne_true_of_eq_false he)]

/-- The raw request of a lift that is late or UNREACHABLE. -/
theorem rawRequest_late {r : Row} {now startLead : Nat} {fallback : Int} (h : r.holding = false)
    (he : r.eligible now startLead fallback = true) (hl : 0 < r.liftEnergy fallback)
    (hlate : aheadMinutes now r.departure ≤ r.params.m ∨ r.unreachable fallback = true) :
    r.rawRequest now startLead fallback = r.limits.pmaxEff := by
  unfold Row.rawRequest
  rw [if_neg (ne_true_of_eq_false h), if_pos he, if_neg (by omega), if_pos (hlate.imp_left (by omega))]

/-- The raw request of a lift in time: the lift power and the loss power over the heater's efficiency. -/
theorem rawRequest_lift {r : Row} {now startLead left : Nat} {fallback : Int} (h : r.holding = false)
    (he : r.eligible now startLead fallback = true) (hl : 0 < r.liftEnergy fallback)
    (hleft : (left : Int) = aheadMinutes now r.departure - r.params.m) (hpos : 0 < left)
    (hreach : r.unreachable fallback = false) :
    r.rawRequest now startLead fallback =
      ceilDiv ((r.liftPower fallback left + r.lossPower fallback) * 16) r.params.h := by
  unfold Row.rawRequest
  rw [if_neg (ne_true_of_eq_false h), if_pos he, if_neg (by omega), if_neg (by simp [hreach]; omega), ← hleft,
    Int.toNat_natCast]

/-- Settles O56: each stage of the estimate with its rounding. -/
theorem estimateStages : Obligations.EstimateStages := by
  unfold Obligations.EstimateStages
  intro r now startLead fallback tin tout e full he hh hfull htout htin
  replace htout : tout = r.outsideUsed fallback := htout.trans (outsideUsed_eq r fallback).symm
  replace htin : tin = r.cabinUsed fallback := by
    rw [htout] at htin
    exact htin.trans (cabinUsed_eq r fallback).symm
  replace hfull : full = r.fullHeat := hfull
  subst he htout htin hfull
  refine ⟨tenths_spec _ _, tenths_spec _ _, timeToTarget_idle, timeToTarget_unreachable, timeToTarget_reachable,
    ⟨r.lead fallback, lead_spec r fallback, ?slack, latestStart_spec r fallback⟩, eligible_iff r now startLead fallback,
    holding_iff r, ⟨r.holdPower fallback, ceilDiv_spec _ _ hh, fun h => ?hold, fun h he hl => ?idle⟩,
    fun h he => ?none, fun h he hl => ⟨fun hlate => ?late, fun left hleft hpos hreach => ?lift⟩⟩
  case slack =>
    show r.slack now fallback = _
    unfold Row.slack Tier.offset
    cases r.tier <;> rfl
  case hold => exact congrArg r.limits.request (rawRequest_holding h)
  case idle => exact congrArg r.limits.request (rawRequest_idle h he hl)
  case none => exact congrArg r.limits.request (rawRequest_none h he)
  case late => exact congrArg r.limits.request (rawRequest_late h he hl hlate)
  case lift =>
    refine ⟨r.liftPower fallback left, ceilDiv ((r.liftPower fallback left + r.lossPower fallback) * 16) r.params.h,
      ?_, ceilDiv_spec _ _ hh, congrArg r.limits.request (rawRequest_lift h he hl hleft hpos hreach)⟩
    rw [Nat.mul_comm 1000]
    exact ceilDiv_spec _ _ (by omega)

end Sys2Proof.Machine

/-! PROOF. The two passes of the allocation, row by row. -/

namespace Sys2Proof.Machine

/-! ### The floor pass -/

/-- A row's floor grant: its floor level when that fits what is left, and 0 otherwise. -/
theorem floorGrant_eq (a : AllocRow) (l : Remainder) :
    a.floorGrant l =
      if a.nonCandidate = false ∧ a.floor ≤ l.headroom ∧ a.floor - a.sent.getD 0 ≤ l.ramp then a.floor else 0 := by
  have hfits : l.fits 0 a.floor a.sentForRamp = true ↔
      a.floor ≤ l.headroom ∧ a.floor - a.sent.getD 0 ≤ l.ramp := by
    rw [fits_iff, AllocRow.sentForRamp]
    omega
  unfold AllocRow.floorGrant
  cases a.nonCandidate with
  | true => rw [if_pos rfl, if_neg (by simp)]
  | false => rw [if_neg nofun, if_congr hfits rfl rfl]; simp

/-- A floor grant is paid from what is left. -/
theorem floorGrant_paid (a : AllocRow) (l : Remainder) :
    (l.pay 0 (a.floorGrant l) a.sentForRamp).headroom + a.floorGrant l = l.headroom ∧
      (l.pay 0 (a.floorGrant l) a.sentForRamp).ramp + rampCharge (a, a.floorGrant l) = l.ramp := by
  rw [floorGrant_eq]
  unfold Remainder.pay rampCost rampUse AllocRow.sentForRamp rampCharge
  dsimp only
  split <;> omega

/-- Each floor is granted from what the earlier floors have left. -/
theorem floorPass_split : ∀ (rows : List AllocRow) (l : Remainder) (before after : List (AllocRow × Nat))
    (a : AllocRow) (f : Nat), (floorPass rows l).1 = before ++ (a, f) :: after →
    ∃ l' : Remainder, f = a.floorGrant l' ∧ l'.headroom + (before.map Prod.snd).sum = l.headroom ∧
      l'.ramp + (before.map rampCharge).sum = l.ramp
  | [], _, before, _, _, _, h => by cases before <;> cases h
  | b :: rest, l, [], _, _, _, h => by
    obtain ⟨hhead, _⟩ := List.cons.inj h
    obtain ⟨rfl, rfl⟩ := Prod.mk.inj hhead
    exact ⟨l, rfl, rfl, rfl⟩
  | b :: rest, l, y :: before, after, a, f, h => by
    obtain ⟨rfl, htail⟩ := List.cons.inj h
    obtain ⟨l', hf, hheadroom, hramp⟩ := floorPass_split rest _ before after a f htail
    obtain ⟨hpaid, hcharged⟩ := floorGrant_paid b l
    refine ⟨l', hf, ?_, ?_⟩
    · rw [List.map_cons, List.sum_cons]; omega
    · rw [List.map_cons, List.sum_cons]; omega

/-- The floors and what they leave add up to what there was. -/
theorem floorPass_sum : ∀ (rows : List AllocRow) (l : Remainder),
    (floorPass rows l).2.headroom + ((floorPass rows l).1.map Prod.snd).sum = l.headroom ∧
      (floorPass rows l).2.ramp + ((floorPass rows l).1.map rampCharge).sum = l.ramp
  | [], _ => ⟨rfl, rfl⟩
  | a :: rest, l => by
    obtain ⟨hheadroom, hramp⟩ := floorPass_sum rest (l.pay 0 (a.floorGrant l) a.sentForRamp)
    obtain ⟨hpaid, hcharged⟩ := floorGrant_paid a l
    unfold floorPass
    simp only [List.map_cons, List.sum_cons]
    omega

/-! ### The fill pass -/

/-- A row that takes no step in the fill pass. -/
theorem fillGrant_stays {a : AllocRow} {f : Nat} {l : Remainder}
    (h : a.nonCandidate = true ∨ f = 0 ∨ a.heater = .switched) : a.fillGrant f l = f := by
  unfold AllocRow.fillGrant
  by_cases hstays : a.nonCandidate = true ∨ f = 0
  · exact if_pos hstays
  · rw [if_neg hstays, (by tauto : a.heater = .switched)]

/-- A STEPPED row's step from half to the maximum. -/
theorem fillGrant_stepped {a : AllocRow} {f : Nat} {l : Remainder} (hc : a.nonCandidate = false) (hf : 0 < f)
    (hheater : a.heater = .stepped) :
    a.fillGrant f l =
      if f = a.half ∧ a.request = a.pmaxEff ∧ a.pmaxEff - f ≤ l.headroom ∧
        (a.pmaxEff - a.sent.getD 0) - (f - a.sent.getD 0) ≤ l.ramp then a.pmaxEff else f := by
  unfold AllocRow.fillGrant
  rw [if_neg (by simp [hc]; omega), hheater]
  exact if_congr (and_congr_right fun _ => and_congr_right fun _ => fits_iff) rfl rfl

/-- A CONTINUOUS row's rise to what its request and the remainder allow. -/
theorem fillGrant_continuous {a : AllocRow} {f : Nat} {l : Remainder} (hc : a.nonCandidate = false) (hf : 0 < f)
    (hheater : a.heater = .continuous) :
    a.fillGrant f l =
      max f (min a.request (min (f + l.headroom) (max f (a.sent.getD 0) + l.ramp)) / 100 * 100) := by
  unfold AllocRow.fillGrant
  rw [if_neg (by simp [hc]; omega), hheater]
  rfl

/-- A raise in the fill pass is paid from what is left. -/
theorem fillGrant_paid {a : AllocRow} (f : Nat) (l : Remainder) (hhalf : a.heater = .stepped → a.half ≤ a.pmaxEff) :
    (l.pay f (a.fillGrant f l) a.sentForRamp).headroom + a.fillGrant f l = l.headroom + f ∧
      (l.pay f (a.fillGrant f l) a.sentForRamp).ramp + rampCharge (a, a.fillGrant f l) = l.ramp + rampCharge (a, f) := by
  unfold Remainder.pay rampCost rampUse AllocRow.sentForRamp rampCharge
  dsimp only
  by_cases hstays : a.nonCandidate = true ∨ f = 0 ∨ a.heater = .switched
  · rw [fillGrant_stays hstays]
    omega
  · obtain ⟨hc, hf, hswitched⟩ : a.nonCandidate = false ∧ 0 < f ∧ a.heater ≠ .switched := by
      obtain ⟨hc, hf, hswitched⟩ : _ ∧ _ ∧ _ := by simpa only [not_or, Bool.not_eq_true] using hstays
      exact ⟨hc, Nat.pos_of_ne_zero hf, hswitched⟩
    cases hheater : a.heater with
    | continuous =>
      rw [fillGrant_continuous hc hf hheater]
      omega
    | stepped =>
      rw [fillGrant_stepped hc hf hheater]
      have := hhalf hheater
      split <;> omega
    | switched => exact absurd hheater hswitched

/-- Each grant is raised by what the earlier raises have left. -/
theorem fillPass_split : ∀ (floors : List (AllocRow × Nat)) (l : Remainder)
    (before after before' after' : List (AllocRow × Nat)) (a : AllocRow) (f g : Nat),
    (∀ x ∈ floors, x.1.heater = .stepped → x.1.half ≤ x.1.pmaxEff) → floors = before ++ (a, f) :: after →
    (fillPass floors l).1 = before' ++ (a, g) :: after' → before.length = before'.length →
    ∃ l' : Remainder, g = a.fillGrant f l' ∧
      l'.headroom + (before'.map Prod.snd).sum = l.headroom + (before.map Prod.snd).sum ∧
      l'.ramp + (before'.map rampCharge).sum = l.ramp + (before.map rampCharge).sum
  | _, l, [], _, [], _, a, f, g, _, rfl, h, _ => by
    obtain ⟨hhead, _⟩ := List.cons.inj h
    exact ⟨l, (Prod.mk.inj hhead).2.symm, rfl, rfl⟩
  | _, _, [], _, _ :: _, _, _, _, _, _, _, _, hlen => nomatch hlen
  | _, _, _ :: _, _, [], _, _, _, _, _, _, _, hlen => nomatch hlen
  | _, l, (b, w) :: before, after, y :: before', after', a, f, g, hhalf, rfl, h, hlen => by
    obtain ⟨rfl, htail⟩ := List.cons.inj h
    have hrest : ∀ x ∈ before ++ (a, f) :: after, x.1.heater = .stepped → x.1.half ≤ x.1.pmaxEff :=
      fun x hx => hhalf x (List.mem_cons_of_mem _ hx)
    obtain ⟨l', hg, hheadroom, hramp⟩ := fillPass_split _ _ before after before' after' a f g hrest rfl htail
      (Nat.succ.inj hlen)
    obtain ⟨hpaid, hcharged⟩ := fillGrant_paid (a := b) w l (hhalf (b, w) List.mem_cons_self)
    refine ⟨l', hg, ?_, ?_⟩
    · simp only [List.map_cons, List.sum_cons]; omega
    · simp only [List.map_cons, List.sum_cons]; omega

/-- Settles O54: the floors, the fills from what they leave, and what the allocation keeps. -/
theorem allocationBounds : Obligations.AllocationBounds := by
  unfold Obligations.AllocationBounds
  intro headroom ramp rows grants rest halloc
  obtain ⟨fl, hfl⟩ : ∃ fl, fl = floorPass rows { headroom := headroom, ramp := ramp } := ⟨_, rfl⟩
  have hfill : fillPass fl.1 fl.2 = (grants, rest) := by rw [hfl]; exact halloc
  have hgrants : (fillPass fl.1 fl.2).1 = grants := by rw [hfill]
  have hrest : (fillPass fl.1 fl.2).2 = rest := by rw [hfill]
  have hrows : fl.1.map Prod.fst = rows := by rw [hfl]; exact floorPass_rows _ _
  refine ⟨⟨fl.1, hrows, ?floors, fun hhalf => ?fills⟩, fun hok => ?keeps⟩
  case floors =>
    intro before after a f floor hd rp hsplit hheadroom hramp hfloor
    have hfloor : a.floor = floor := hfloor.symm
    rw [hfl] at hsplit
    obtain ⟨l', hf, hheadroom', hramp'⟩ := floorPass_split _ _ before after a f hsplit
    have hleft : l'.headroom = hd ∧ l'.ramp = rp := by
      change _ = headroom at hheadroom'
      change _ = ramp at hramp'
      change rp + (before.map rampCharge).sum = ramp at hramp
      omega
    refine ⟨hfloor, ?_⟩
    rw [hf, floorGrant_eq, hfloor, hleft.1, hleft.2]
  case fills =>
    intro before before' after after' a f g hd rp hsplit hsplit' hlen hheadroom hramp
    have hhalf' : ∀ x ∈ fl.1, x.1.heater = .stepped → x.1.half ≤ x.1.pmaxEff := fun x hx =>
      hhalf x.1 (hrows ▸ List.mem_map_of_mem hx)
    obtain ⟨l', hg, hheadroom', hramp'⟩ := fillPass_split _ fl.2 before after before' after' a f g hhalf' hsplit
      (hgrants.trans hsplit') hlen
    obtain ⟨hsum, hsum'⟩ := floorPass_sum rows { headroom := headroom, ramp := ramp }
    rw [← hfl, hsplit] at hsum hsum'
    simp only [List.map_append, List.map_cons, List.sum_append, List.sum_cons] at hsum hsum'
    have hleft : l'.headroom = hd ∧ l'.ramp = rp := by
      change rp + (before'.map rampCharge).sum + rampCharge (a, f) + (after.map rampCharge).sum = ramp at hramp
      omega
    have hcandidate : 0 < f → a.nonCandidate = false := by
      intro hpos
      rw [hfl] at hsplit
      obtain ⟨_, hf, _, _⟩ := floorPass_split _ _ before after a f hsplit
      rw [floorGrant_eq] at hf
      by_contra hc
      rw [if_neg (fun h => hc h.1)] at hf
      omega
    refine ⟨fun hzero => ?_, fun hheater => ?_, fun hheater hpos => ?_, fun hheater hpos hle hmod => ?_⟩
    · rw [hg, fillGrant_stays (.inr (.inl hzero)), hzero]
    · rw [hg, fillGrant_stays (.inr (.inr hheater))]
    · rw [hg, fillGrant_stepped (hcandidate hpos) hpos hheater, hleft.1, hleft.2]
    · rw [hg, fillGrant_continuous (hcandidate hpos) hpos hheater, hleft.1, hleft.2]
      exact ⟨by omega, fun w hw hlow hhigh hfits hramp => by omega⟩
  case keeps =>
    obtain ⟨_, hsum, hsum', hfloors⟩ := floorPass_spec rows { headroom := headroom, ramp := ramp } hok
    rw [← hfl] at hsum hsum' hfloors
    obtain ⟨hkept, htotal, htotal', _, _, hfilled⟩ := fillPass_spec fl.1 fl.2
      (fun x hx => hok x.1 (hrows ▸ List.mem_map_of_mem hx)) hfloors
    rw [hgrants, hrest] at htotal htotal' hfilled
    rw [hgrants] at hkept
    refine ⟨hkept.trans hrows, htotal.trans hsum, htotal'.trans hsum', ?_⟩
    rintro a g _ hmem rfl
    exact hfilled (a, g) hmem

end Sys2Proof.Machine
